-- ==== Sys2Proof/Word.lean ====
section
/-! DEFINITION. The widths the block works with, and the names of its registers: letters, views and
RegisterRefs (00_scope.md R9, R12, R14). What is done with them is in Decode.lean (codes) and in
Machine/Operands.lean (widths, reads, writes). -/

namespace Sys2Proof

/-- `CELL_WIDTH`, `STACK_ENTRY_WIDTH`, `INSTR_WIDTH` and `WDATA_WIDTH` are all 16 (00_scope.md R9). -/
abbrev Word := BitVec 16

/-- `BYTE_WIDTH` is 8 (00_scope.md R9): what a LowByte or HighByte view holds. -/
abbrev Byte := BitVec 8

/-- The 4-bit code of a RegisterRef, `{letter[1:0], view[1:0]}` (30_encoding.md R71). -/
abbrev RefCode := BitVec 4

/-- "one of the four named general-purpose registers (A/B/C/D)" (00_scope.md R14). -/
inductive Letter where
  | A | B | C | D
deriving DecidableEq, Repr

/-- "which bits of a letter's storage an operand addresses" (00_scope.md R14, 10_state.md R22). -/
inductive View where
  | word
  | lowByte
  | highByte
deriving DecidableEq, Repr

/-- The two width classes that compatibility compares (41_transfer.md R110). -/
inductive WidthClass where
  | w16
  | w8
deriving DecidableEq, Repr

/-- The pair (letter, view), "a pure value (no identity beyond letter+view)" (00_scope.md R12). -/
structure RegisterRef where
  letter : Letter
  view : View
deriving DecidableEq, Repr

end Sys2Proof
end

