-- ==== Sys2Proof/Syntax.lean ====
section
/-! DEFINITION. The instructions of PRJ-4, one constructor per row of spec/opcode_table.json
(00_scope.md R3). Operands stand in the source's order, source first (00_scope.md R13, D22). -/

namespace Sys2Proof

/-- "Mov/Xchg: source+destination; Push: source; Pop: destination" (00_scope.md R3). -/
inductive Instr where
  /-- MOV src, dst (41_transfer.md R114). -/
  | mov (src dst : RegisterRef)
  /-- XCHG src, dst (41_transfer.md R116). -/
  | xchg (src dst : RegisterRef)
  /-- PUSH src (42_stack.md R130). -/
  | push (src : RegisterRef)
  /-- POP dst (42_stack.md R132). -/
  | pop (dst : RegisterRef)
deriving DecidableEq, Repr

end Sys2Proof
end

