-- ==== Sys2Proof/WellFormed.lean ====
section
/-! DEFINITION. What is well formed: instructions, instruction words and request encodings.
The word check is written from the opcode map's masks and matches (30_encoding.md R79), not from the
decoder's case list (R74), so that the two can be compared. -/

namespace Sys2Proof

/-- A row of the opcode map (30_encoding.md R79, spec/opcode_table.json): its mask, its match and
which operand fields its extra condition looks at. -/
structure OpcodeRow where
  mnemonic : String
  pattern : Word
  mask : Word
  usesSrc : Bool
  usesDst : Bool
deriving DecidableEq, Repr

def rowMov : OpcodeRow := ⟨"MOV", 0x1000, 0xFF00, true, true⟩
def rowXchg : OpcodeRow := ⟨"XCHG", 0x2000, 0xFF00, true, true⟩
def rowPush : OpcodeRow := ⟨"PUSH", 0x3000, 0xFF0F, true, false⟩
def rowPop : OpcodeRow := ⟨"POP", 0x4000, 0xFFF0, false, true⟩

/-- The opcode map (30_encoding.md R79). -/
def opcodeTable : List OpcodeRow := [rowMov, rowXchg, rowPush, rowPop]

/-- The row of an instruction. -/
def Instr.row : Instr → OpcodeRow
  | .mov _ _ => rowMov
  | .xchg _ _ => rowXchg
  | .push _ => rowPush
  | .pop _ => rowPop

/-- A RegisterRef code names a view unless its view bits are 11 (30_encoding.md R72). -/
def legalRef (c : RefCode) : Bool := c.extractLsb' 0 2 != 3

/-- "A word w encodes a row's instruction iff `(w & mask) = match` and the row's extra condition
holds" (30_encoding.md R79). -/
def OpcodeRow.encodes (row : OpcodeRow) (w : Word) : Bool :=
  (w &&& row.mask == row.pattern)
    && (!row.usesSrc || legalRef (w.extractLsb' 4 4))
    && (!row.usesDst || legalRef (w.extractLsb' 0 4))

/-- A legal instruction word (30_encoding.md R77). -/
def legalWord (w : Word) : Bool := opcodeTable.any (·.encodes w)

/-- A legal request: not the reserved kind, and the field its kind uses is legal
(30_encoding.md R61, R77). Fields the kind does not use are ignored (R62). -/
def legalRequest (kind : BitVec 2) (instr : Word) (ref : RefCode) : Bool :=
  if kind = 0 then legalWord instr
  else if kind = 1 then legalRef ref
  else if kind = 2 then legalRef ref
  else false

/-- Well-formedness of an instruction as syntax. Its operands are RegisterRefs, each of which has a
code, so no check can fail: "At that level a malformed instruction cannot be written down"
(00_scope.md R15). Operand widths are no part of it: a width error is an outcome of running the
instruction (30_encoding.md R74). DEDUCED (log 17). -/
def Instr.wellFormed : Instr → Bool
  | .mov _ _ => true
  | .xchg _ _ => true
  | .push _ => true
  | .pop _ => true

end Sys2Proof
end

