-- ==== Sys2Proof/Decode.lean ====
section
/-! DEFINITION. RegisterRef codes, the decoder (30_encoding.md R70 to R78) and, after it, the encoder.
The decoder is total on all 65536 words and rejects by name. -/

namespace Sys2Proof

/-! ## RegisterRef codes (30_encoding.md R71, R72) -/

/-- "The letter codes are A = 00, B = 01, C = 10 and D = 11" (R71). -/
def Letter.code : Letter → BitVec 2
  | .A => 0
  | .B => 1
  | .C => 2
  | .D => 3

/-- "View codes: Word = 00, LowByte = 01, HighByte = 10" (R72). -/
def View.code : View → BitVec 2
  | .word => 0
  | .lowByte => 1
  | .highByte => 2

/-- `{letter[1:0], view[1:0]}` (R71). -/
def RegisterRef.code (r : RegisterRef) : RefCode := r.letter.code ++ r.view.code

def Letter.ofCode (c : BitVec 2) : Letter :=
  if c = 0 then .A else if c = 1 then .B else if c = 2 then .C else .D

/-- "Code 11 is reserved and names no view" (R72). -/
def View.ofCode (c : BitVec 2) : Option View :=
  if c = 0 then some .word
  else if c = 1 then some .lowByte
  else if c = 2 then some .highByte
  else none

/-- `refOf` of R74; none for the illegal codes 0x3, 0x7, 0xB and 0xF (R72). -/
def refOf (c : RefCode) : Option RegisterRef :=
  (View.ofCode (c.extractLsb' 0 2)).map fun v => ⟨Letter.ofCode (c.extractLsb' 2 2), v⟩

/-! ## The instruction word's fields (30_encoding.md R70) -/

def opField (w : Word) : BitVec 4 := w.extractLsb' 12 4
def rsvField (w : Word) : BitVec 4 := w.extractLsb' 8 4
def srcField (w : Word) : RefCode := w.extractLsb' 4 4
def dstField (w : Word) : RefCode := w.extractLsb' 0 4

/-- Why a word is illegal (30_encoding.md R77). The block reports all four alike, as IllegalEncoding
(60_exceptions.md R155); the names are the model's. DESIGN CHOICE (log 10). -/
inductive DecodeReject where
  /-- `rsv != 0` (R70). -/
  | reservedField
  /-- `op` is 0000 or 0101..1111 (R73). -/
  | reservedOpcode
  /-- A used operand field has view code 11 (R72). -/
  | reservedView
  /-- An unused operand field is nonzero (R75). -/
  | unusedField
deriving DecidableEq, Repr

/-- Two operand fields, both used: MOV and XCHG (R75). -/
def decodeSrcDst (mk : RegisterRef → RegisterRef → Instr) (w : Word) :
    Except DecodeReject Instr :=
  match refOf (srcField w), refOf (dstField w) with
  | some s, some d => .ok (mk s d)
  | _, _ => .error .reservedView

/-- One used operand field beside one that must be zero: PUSH and POP (R75). -/
def decodeOne (mk : RegisterRef → Instr) (used unused : RefCode) : Except DecodeReject Instr :=
  if unused ≠ 0 then .error .unusedField
  else match refOf used with
    | some r => .ok (mk r)
    | none => .error .reservedView

/-- `decode` of R74, total on all 65536 words. -/
def decode (w : Word) : Except DecodeReject Instr :=
  if rsvField w ≠ 0 then .error .reservedField
  else if opField w = 1 then decodeSrcDst .mov w
  else if opField w = 2 then decodeSrcDst .xchg w
  else if opField w = 3 then decodeOne .push (srcField w) (dstField w)
  else if opField w = 4 then decodeOne .pop (dstField w) (srcField w)
  else .error .reservedOpcode

/-- The instruction word the host's table bits stand for: `nbits` bits of `w`, every bit above them
zero, on the 16-bit port `req_instr` with bit 15 the most significant (R44, R70).
DESIGN CHOICE (log 12): bits above bit 15 do not reach the port. -/
def tableWord (nbits w : Nat) : Word := BitVec.ofNat 16 (w % 2 ^ nbits)

/-- The instruction the decoder reads from an opcode-table word. -/
def decodeTableWord (nbits w : Nat) : Option Instr := (decode (tableWord nbits w)).toOption

/-! ## The encoder (30_encoding.md R70, R73, R75, R79) -/

/-- `op`, `rsv = 0000`, `src`, `dst`, from the most significant bit down (R70). -/
def encodeWord (op : BitVec 4) (src dst : RefCode) : Word := op ++ 0#4 ++ src ++ dst

/-- The word of an instruction; an unused operand field is 0000 (R75). -/
def encode : Instr → Word
  | .mov s d => encodeWord 1 s.code d.code
  | .xchg s d => encodeWord 2 s.code d.code
  | .push s => encodeWord 3 s.code 0
  | .pop d => encodeWord 4 0 d.code

end Sys2Proof
end

