-- ==== Sys2Proof/Config.lean ====
section
/-! DEFINITION. What one build of the block fixes: the open parameter `STACK_DEPTH`
(00_scope.md R9, 92_eei_decisions.md D10). -/

namespace Sys2Proof

/-- `STACK_DEPTH`: "a positive integer, or `unbounded` in a model" (00_scope.md R9).
That a bound is positive is `Config.legal` of Safety.lean (log 3). -/
inductive StackDepth where
  | unbounded
  | bounded (entries : Nat)
deriving DecidableEq, Repr

/-- The parameters of the block that the spec leaves open. There is one.
DESIGN CHOICE (log 1): it travels in State, where no step changes it, so that a statement about every
state is a statement about every `STACK_DEPTH`, as D10 asks of a claim. -/
structure Config where
  stackDepth : StackDepth
deriving DecidableEq, Repr

end Sys2Proof
end

