-- ==== Sys2Proof/Machine/State.lean ====
section
/-! DEFINITION. The state of the block as plain data: the four cells and the stack (10_state.md R20),
the response registers (30_encoding.md R63), the open parameter, and the inputs still to come. -/

namespace Sys2Proof.Machine

/-- The four 16-bit cells, "exactly 4 cells, one per letter" (10_state.md R21). -/
structure Cells where
  a : Word
  b : Word
  c : Word
  d : Word
deriving DecidableEq, Repr

/-- The statuses a response can carry (60_exceptions.md R151). Codes 6 and 7 are "never produced", so
the type has no such value (93_implementation_defined.md U12). -/
inductive Status where
  | ok
  | sizeMismatch
  | invalidOperandWidth
  | stackUnderflow
  | stackOverflow
  | illegalEncoding
deriving DecidableEq, Repr

/-- The errors and what each records (60_exceptions.md R152 to R155). -/
inductive ExecError where
  /-- "`SizeMismatch{source_width, destination_width, source_name, destination_name}`" (R152). -/
  | sizeMismatch (sourceWidth destinationWidth : Nat) (source destination : RegisterRef)
  /-- "`InvalidOperandWidth{register_name}`" (R153). -/
  | invalidOperandWidth (register : RegisterRef)
  /-- Records nothing (R154). -/
  | stackUnderflow
  /-- Records nothing (42_stack.md R130). -/
  | stackOverflow
  /-- Records nothing (R155). -/
  | illegalEncoding
deriving DecidableEq, Repr

/-- The response outputs, which "are registers" (30_encoding.md R63). No instruction reads them
(10_state.md R29); they hold the last result. DEDUCED (log 8). -/
structure Response where
  valid : Bool
  status : Status
  data : Word
  name0 : RefCode
  name1 : RefCode
  width0 : BitVec 5
  width1 : BitVec 5
deriving DecidableEq, Repr

/-- The values on the input ports at one rising edge of `clk` (30_encoding.md R62). `peekIndex` is a
natural number rather than `DEPTH_W` bits (log 11). -/
structure Inputs where
  rst : Bool
  reqValid : Bool
  reqKind : BitVec 2
  reqInstr : Word
  reqRef : RefCode
  reqWdata : Word
  peekIndex : Nat
deriving DecidableEq, Repr

/-- `cells` and `stack` are the architectural state of 10_state.md R20, the stack with its top first;
`rsp` is the response registers of 30_encoding.md R63.
`config` and `inputs` are the model's own: the open parameter `STACK_DEPTH`, which no step changes
(log 1), and what the requester drives at the coming edges, first edge first (log 4). -/
structure State where
  cells : Cells
  stack : List Word
  rsp : Response
  config : Config
  inputs : List Inputs
deriving DecidableEq, Repr

/-- Why a step could stop: never. "The step function is total on every request, so the model has no
refusal and no fault of its own" (60_exceptions.md R150). The type has no constructor, which is safe:
every error of the spec is a next state with an error response (log 9). -/
inductive Fault where
deriving DecidableEq, Repr

/-- Why an instruction has no meaning. -/
inductive Refusal where
  /-- Raised by an arm of `exec` whose instruction has no meaning yet; safe. No arm raises it. -/
  | notModelled (mnemonic : String)
deriving DecidableEq, Repr

/-! ## The named updates, one per field a step may change -/

def State.withCells (s : State) (c : Cells) : State := { s with cells := c }
def State.withStack (s : State) (st : List Word) : State := { s with stack := st }
def State.withRsp (s : State) (r : Response) : State := { s with rsp := r }
def State.withInputs (s : State) (is : List Inputs) : State := { s with inputs := is }

/-! ## The state right after reset (10_state.md R32, 70_reset_and_hazards.md R180) -/

/-- "all four cells initialize to zero". -/
def Cells.reset : Cells := ⟨0, 0, 0, 0⟩

/-- `rsp_valid` and every other `rsp_*` are 0; status code 0 is OK (60_exceptions.md R151). -/
def Response.reset : Response := ⟨false, .ok, 0, 0, 0, 0, 0⟩

/-- The machine right after reset. Cells, stack and response registers are the spec's.
DESIGN CHOICE: `STACK_DEPTH` is unbounded (log 2) and no inputs are listed (log 6). -/
def State.reset : State where
  cells := .reset
  stack := []
  rsp := .reset
  config := { stackDepth := .unbounded }
  inputs := []

end Sys2Proof.Machine
end

