-- ==== Sys2Proof/Machine/Operands.lean ====
section
/-! DEFINITION. Reading and writing the cells through their views, operand widths, and the
operand-size compatibility rule (00_scope.md R12, 10_state.md R22, R23, 40_register_access.md R90, R92,
41_transfer.md R110). Every register access of the model goes through `viewRead` and `viewWrite`. -/

namespace Sys2Proof.Machine

/-! ## Bytes of a cell (10_state.md R22, 20_memory.md R43) -/

/-- Bits 7..0. -/
def lowByteOf (v : Word) : Byte := v.extractLsb' 0 8

/-- Bits 15..8. -/
def highByteOf (v : Word) : Byte := v.extractLsb' 8 8

/-- `{high, low}`. -/
def joinBytes (high low : Byte) : Word := high ++ low

/-! ## Cells by letter (10_state.md R21) -/

def cellOf (L : Letter) (c : Cells) : Word :=
  match L with
  | .A => c.a
  | .B => c.b
  | .C => c.c
  | .D => c.d

/-- `cell[L] <- v` (00_scope.md R11). -/
def setCell (L : Letter) (v : Word) (c : Cells) : Cells :=
  match L with
  | .A => { c with a := v }
  | .B => { c with b := v }
  | .C => { c with c := v }
  | .D => { c with d := v }

/-! ## Views -/

/-- `zext_16(view_read(r))`: an unsigned value, "never sign-extended" (40_register_access.md R90). -/
def viewRead (r : RegisterRef) (c : Cells) : Word :=
  match r.view with
  | .word => cellOf r.letter c
  | .lowByte => (lowByteOf (cellOf r.letter c)).setWidth 16
  | .highByte => (highByteOf (cellOf r.letter c)).setWidth 16

/-- `view_write(r, v)`: a byte write takes `v[7:0]` and keeps the other half of the cell
(40_register_access.md R92, 90_conflicts.md C5). -/
def viewWrite (r : RegisterRef) (v : Word) (c : Cells) : Cells :=
  match r.view with
  | .word => setCell r.letter v c
  | .lowByte => setCell r.letter (joinBytes (highByteOf (cellOf r.letter c)) (lowByteOf v)) c
  | .highByte => setCell r.letter (joinBytes (lowByteOf v) (lowByteOf (cellOf r.letter c))) c

/-- `view_write` of the two operands of XCHG, in the order of 41_transfer.md R116 (which does not
matter, R117). -/
def viewSwap (src dst : RegisterRef) (c : Cells) : Cells :=
  viewWrite dst (viewRead src c) (viewWrite src (viewRead dst c) c)

/-! ## Widths and compatibility -/

/-- `width(r)`: "16 for Word view, 8 for either byte view" (00_scope.md R12). -/
def widthOf (r : RegisterRef) : Nat :=
  match r.view with
  | .word => 16
  | .lowByte => 8
  | .highByte => 8

/-- `class` of 41_transfer.md R110. -/
def widthClass (v : View) : WidthClass :=
  match v with
  | .word => .w16
  | .lowByte => .w8
  | .highByte => .w8

/-- "Two RegisterRefs s and d are *compatible* iff `class(s.view) = class(d.view)`" (41_transfer.md
R110). -/
def compatible (s d : RegisterRef) : Bool := widthClass s.view == widthClass d.view

/-- The bits of a letter's cell that a view addresses, as a mask (10_state.md R22). -/
def viewMask (v : View) : Word :=
  match v with
  | .word => 0xFFFF
  | .lowByte => 0x00FF
  | .highByte => 0xFF00

/-- Whether two RegisterRefs share a bit of a cell: "Bits can be shared only within one letter"
(41_transfer.md R112). -/
def sharesBits (r q : RegisterRef) : Bool :=
  r.letter == q.letter && (viewMask r.view &&& viewMask q.view) != 0

/-- The 12 RegisterRefs, letter-major (40_register_access.md R97). -/
def allRefs : List RegisterRef :=
  [Letter.A, .B, .C, .D].flatMap fun L => [⟨L, .word⟩, ⟨L, .lowByte⟩, ⟨L, .highByte⟩]

end Sys2Proof.Machine
end

