-- ==== Sys2Proof/Machine/Flags.lean ====
section
/-! DEFINITION. What an operation reports of itself. The block "has no flags register and no condition
codes" (10_state.md R28): what stands in a flag's place is the response (30_encoding.md R63), and
its status codes and payloads are computed here (60_exceptions.md R151 to R155). -/

namespace Sys2Proof.Machine

/-- `rsp_status[2:0]` (60_exceptions.md R151). -/
def Status.code : Status → BitVec 3
  | .ok => 0
  | .sizeMismatch => 1
  | .invalidOperandWidth => 2
  | .stackUnderflow => 3
  | .stackOverflow => 4
  | .illegalEncoding => 5

/-- The status that reports an error (60_exceptions.md R151). -/
def ExecError.status : ExecError → Status
  | .sizeMismatch _ _ _ _ => .sizeMismatch
  | .invalidOperandWidth _ => .invalidOperandWidth
  | .stackUnderflow => .stackUnderflow
  | .stackOverflow => .stackOverflow
  | .illegalEncoding => .illegalEncoding

/-- The response to a request that succeeds: `return OK(data)`; the payload ports are 0
(30_encoding.md R63). -/
def okResponse (data : Word) : Response where
  valid := true
  status := .ok
  data := data
  name0 := 0
  name1 := 0
  width0 := 0
  width1 := 0

/-- `rsp_name0`: the source's code, or the offending operand's (60_exceptions.md R152, R153). -/
def ExecError.name0 : ExecError → RefCode
  | .sizeMismatch _ _ s _ => s.code
  | .invalidOperandWidth r => r.code
  | .stackUnderflow => 0
  | .stackOverflow => 0
  | .illegalEncoding => 0

/-- `rsp_name1`: the destination's code (60_exceptions.md R152). -/
def ExecError.name1 : ExecError → RefCode
  | .sizeMismatch _ _ _ d => d.code
  | .invalidOperandWidth _ => 0
  | .stackUnderflow => 0
  | .stackOverflow => 0
  | .illegalEncoding => 0

/-- `rsp_width0`: the source's width (60_exceptions.md R152). -/
def ExecError.width0 : ExecError → BitVec 5
  | .sizeMismatch ws _ _ _ => BitVec.ofNat 5 ws
  | .invalidOperandWidth _ => 0
  | .stackUnderflow => 0
  | .stackOverflow => 0
  | .illegalEncoding => 0

/-- `rsp_width1`: the destination's width (60_exceptions.md R152). -/
def ExecError.width1 : ExecError → BitVec 5
  | .sizeMismatch _ wd _ _ => BitVec.ofNat 5 wd
  | .invalidOperandWidth _ => 0
  | .stackUnderflow => 0
  | .stackOverflow => 0
  | .illegalEncoding => 0

/-- The response to a request that ends in an error; `rsp_data` is 0 (30_encoding.md R63). -/
def errorResponse (e : ExecError) : Response where
  valid := true
  status := e.status
  data := 0
  name0 := e.name0
  name1 := e.name1
  width0 := e.width0
  width1 := e.width1

end Sys2Proof.Machine
end

