-- ==== Sys2Proof/Machine/Ops.lean ====
section
/-! DEFINITION. The operations the meanings share: how a request ends (`complete`, `raise`), the views
and the stack of a state, and the edges that carry no request (reset and idle). -/

namespace Sys2Proof.Machine

/-! ## How a request ends -/

/-- `return OK(data)` (00_scope.md R11): the response registers take the result. -/
def complete (data : Word) (s : State) : Host.Outcome State Fault Refusal :=
  .next (s.withRsp (okResponse data))

/-- `raise <Error>(fields)`, the block's one way of taking an exception: it "ends the operation with
the error response of 60_exceptions.md and changes no state" (00_scope.md R11, 60_exceptions.md R156).
Nothing is saved, no mode changes and no vector is taken (R160), and there is no return from it (R161):
the next request runs from the state this one leaves. -/
def raise (e : ExecError) (s : State) : Host.Outcome State Fault Refusal :=
  .next (s.withRsp (errorResponse e))

/-! ## Views of a state -/

def readView (r : RegisterRef) (s : State) : Word := viewRead r s.cells

def writeView (r : RegisterRef) (v : Word) (s : State) : State :=
  s.withCells (viewWrite r v s.cells)

/-- The SizeMismatch of an incompatible pair, with both widths and both names (60_exceptions.md
R152). -/
def sizeMismatchOf (src dst : RegisterRef) : ExecError :=
  .sizeMismatch (widthOf src) (widthOf dst) src dst

/-! ## The stack (10_state.md R26) -/

/-- `STACK_DEPTH != unbounded and depth(stack) = STACK_DEPTH` (42_stack.md R130). -/
def stackFull (s : State) : Bool :=
  match s.config.stackDepth with
  | .unbounded => false
  | .bounded n => s.stack.length == n

/-- `stack.push(v)`: v becomes the top (00_scope.md R11). -/
def pushStack (v : Word) (s : State) : State := s.withStack (v :: s.stack)

/-! ## Edges that carry no request -/

/-- An edge with `rst = 1` (70_reset_and_hazards.md R180). The parameter stays, and so do the inputs of
later edges. -/
def resetEdge (s : State) : State :=
  ((s.withCells .reset).withStack []).withRsp .reset

/-- An edge with `rst = 0` and `req_valid = 0`: `rsp_valid <- 0`, all else held
(70_reset_and_hazards.md R190, 30_encoding.md R65). -/
def idleEdge (s : State) : State := s.withRsp { s.rsp with valid := false }

end Sys2Proof.Machine
end

