-- ==== Sys2Proof/Machine/Stack.lean ====
section
/-! DEFINITION. The stack instructions PUSH and POP (42_stack.md). -/

namespace Sys2Proof.Machine

/-- PUSH src: the stack is checked first, then the width (42_stack.md R130, 60_exceptions.md R157). -/
def execPush (src : RegisterRef) (s : State) : Host.Outcome State Fault Refusal :=
  if stackFull s then raise .stackOverflow s
  else if src.view ≠ .word then raise (.invalidOperandWidth src) s
  else complete 0 (pushStack (readView src s) s)

/-- POP dst: the stack is checked first, then the width, and only then is the top consumed
(42_stack.md R132, 60_exceptions.md R157). -/
def execPop (dst : RegisterRef) (s : State) : Host.Outcome State Fault Refusal :=
  match s.stack with
  | [] => raise .stackUnderflow s
  | v :: rest =>
    if dst.view ≠ .word then raise (.invalidOperandWidth dst) s
    else complete 0 (writeView dst v (s.withStack rest))

end Sys2Proof.Machine
end

