-- ==== Sys2Proof/Machine/Transfer.lean ====
section
/-! DEFINITION. The register transfer instructions MOV and XCHG (41_transfer.md). -/

namespace Sys2Proof.Machine

/-- MOV src, dst (41_transfer.md R114). -/
def execMov (src dst : RegisterRef) (s : State) : Host.Outcome State Fault Refusal :=
  if compatible src dst then complete 0 (writeView dst (readView src s) s)
  else raise (sizeMismatchOf src dst) s

/-- XCHG src, dst: both operands are read before either is written (41_transfer.md R116). -/
def execXchg (src dst : RegisterRef) (s : State) : Host.Outcome State Fault Refusal :=
  if compatible src dst then complete 0 (s.withCells (viewSwap src dst s.cells))
  else raise (sizeMismatchOf src dst) s

end Sys2Proof.Machine
end

