-- ==== Sys2Proof/Machine/Dispatch.lean ====
section
/-! DEFINITION. `execute(Instruction)`, "dispatching to mov/push/pop/xchg" (30_encoding.md R66): one arm
per constructor of Instr. -/

namespace Sys2Proof.Machine

def exec (i : Instr) (s : State) : Host.Outcome State Fault Refusal :=
  match i with
  | .mov src dst => Sys2Proof.Machine.execMov src dst s
  | .xchg src dst => Sys2Proof.Machine.execXchg src dst s
  | .push src => Sys2Proof.Machine.execPush src s
  | .pop dst => Sys2Proof.Machine.execPop dst s

end Sys2Proof.Machine
end

