-- ==== Sys2Proof/Machine/Request.lean ====
section
/-! DEFINITION. The request channel: the host requests READ and WRITE (40_register_access.md R90, R92),
the dispatch of an accepted request (30_encoding.md R66), what one rising edge does
(70_reset_and_hazards.md R190), and the requests that the source's interface operations become. -/

namespace Sys2Proof.Machine

/-! ## Host requests -/

/-- READ: `return OK(zext_16(view_read(r)))`, or IllegalEncoding "before any read" when the code names
no view (40_register_access.md R90). -/
def readRequest (ref : RefCode) (s : State) : Host.Outcome State Fault Refusal :=
  match refOf ref with
  | some r => complete (readView r s) s
  | none => raise .illegalEncoding s

/-- WRITE: `view_write(r, v); return OK(0)`, or IllegalEncoding "before any write" when the code names
no view (40_register_access.md R92). -/
def writeRequest (ref : RefCode) (v : Word) (s : State) : Host.Outcome State Fault Refusal :=
  match refOf ref with
  | some r => complete 0 (writeView r v s)
  | none => raise .illegalEncoding s

/-- EXEC: decode, then execute the instruction; an illegal word raises IllegalEncoding
(30_encoding.md R66). -/
def execRequest (w : Word) (s : State) : Host.Outcome State Fault Refusal :=
  match decode w with
  | .ok i => exec i s
  | .error _ => raise .illegalEncoding s

/-! ## An edge -/

/-- Dispatch of an accepted request by `req_kind`; an input its kind does not use is ignored
(30_encoding.md R61, R62, R66). -/
def accept (inp : Inputs) (s : State) : Host.Outcome State Fault Refusal :=
  if inp.reqKind = 0 then execRequest inp.reqInstr s
  else if inp.reqKind = 1 then readRequest inp.reqRef s
  else if inp.reqKind = 2 then writeRequest inp.reqRef inp.reqWdata s
  else raise .illegalEncoding s

/-- One rising edge with the given inputs: reset takes priority over a request
(70_reset_and_hazards.md R181, R190). -/
def edge (inp : Inputs) (s : State) : Host.Outcome State Fault Refusal :=
  if inp.rst then .next (resetEdge s)
  else if inp.reqValid then accept inp s
  else .next (idleEdge s)

/-- The next rising edge: it takes the first inputs listed. DESIGN CHOICE (log 5): with none listed,
`rst = 0` and `req_valid = 0`. -/
def nextEdge (s : State) : Host.Outcome State Fault Refusal :=
  match s.inputs with
  | [] => .next (idleEdge s)
  | inp :: rest => edge inp (s.withInputs rest)

/-! ## Inputs that present a request -/

/-- Nothing presented. -/
def idleInputs : Inputs where
  rst := false
  reqValid := false
  reqKind := 0
  reqInstr := 0
  reqRef := 0
  reqWdata := 0
  peekIndex := 0

def resetInputs : Inputs := { idleInputs with rst := true }

/-- An EXEC request of the word w (30_encoding.md R61). -/
def execInputs (w : Word) : Inputs := { idleInputs with reqValid := true, reqKind := 0, reqInstr := w }

/-- A READ request (30_encoding.md R61). -/
def readInputs (r : RegisterRef) : Inputs :=
  { idleInputs with reqValid := true, reqKind := 1, reqRef := r.code }

/-- A WRITE request (30_encoding.md R61). -/
def writeInputs (r : RegisterRef) (v : Word) : Inputs :=
  { idleInputs with reqValid := true, reqKind := 2, reqRef := r.code, reqWdata := v }

/-- What of a mathematical integer reaches the port `req_wdata`: `n mod 2^16`, non-negative
(40_register_access.md R93). PRESUMED by the spec for negative n (log 13). -/
def wdataOfInt (n : Int) : Word := BitVec.ofInt 16 n

/-- The source's interface operations that reach the block as requests (30_encoding.md's first
table). -/
inductive SourceOp where
  /-- `read(RegisterRef) -> uint16` -/
  | read (r : RegisterRef)
  /-- `write(RegisterRef, integer)` -/
  | write (r : RegisterRef) (n : Int)
  /-- `execute(Instruction) -> Result<(), ExecutionError>` -/
  | execute (i : Instr)
deriving DecidableEq, Repr

/-- The request that realises an interface operation (30_encoding.md's first table, R93). -/
def inputsOf : SourceOp → Inputs
  | .read r => readInputs r
  | .write r n => writeInputs r (wdataOfInt n)
  | .execute i => execInputs (encode i)

end Sys2Proof.Machine
end

