-- ==== Sys2Proof/Machine/Step.lean ====
section
/-! DEFINITION. One step of the machine: one rising edge of `clk` (70_reset_and_hazards.md R190, log 7).
The block has no program counter (10_state.md R27): its next instruction is the one the first inputs
listed in `State.inputs` carry. -/

namespace Sys2Proof.Machine

def step (s : State) : Host.Outcome State Fault Refusal := nextEdge s

/-- The state in which the very next edge presents an EXEC request of that table word; requests
already listed follow it (log 6). -/
def State.withFetchWord (s : State) (nbits w : Nat) : State :=
  s.withInputs (execInputs (tableWord nbits w) :: s.inputs)

end Sys2Proof.Machine
end

