-- ==== Sys2Proof/Machine/Assembler.lean ====
section
/-! DEFINITION. The assembler syntax (30_encoding.md R80, R81): register names as the "name↔value mapping
as a pure, testable lookup table", and lines as lists of tokens, the mnemonic first, then the operands,
source first. How a line of text is cut into tokens the spec does not say (DESIGN CHOICE, log 15). -/

namespace Sys2Proof.Machine

/-- The register names of R81. AH to DH, BL, CL, DL, and AL as the low byte, are PRESUMED by the spec
(log 14). -/
def refName (r : RegisterRef) : String :=
  match r.letter, r.view with
  | .A, .word => "AX"
  | .A, .lowByte => "AL"
  | .A, .highByte => "AH"
  | .B, .word => "BX"
  | .B, .lowByte => "BL"
  | .B, .highByte => "BH"
  | .C, .word => "CX"
  | .C, .lowByte => "CL"
  | .C, .highByte => "CH"
  | .D, .word => "DX"
  | .D, .lowByte => "DL"
  | .D, .highByte => "DH"

/-- The name table read the other way: the RegisterRef of a name, none for any other text. -/
def refNamed (name : String) : Option RegisterRef := allRefs.find? fun r => refName r == name

/-- The tokens of an instruction's assembler form (R80). -/
def disassemble : Instr → List String
  | .mov s d => ["MOV", refName s, refName d]
  | .xchg s d => ["XCHG", refName s, refName d]
  | .push s => ["PUSH", refName s]
  | .pop d => ["POP", refName d]

/-- The instruction of a token list, none where it is no assembler form of R80. -/
def assemble : List String → Option Instr
  | [m, x, y] =>
    match refNamed x, refNamed y with
    | some s, some d => if m = "MOV" then some (.mov s d) else if m = "XCHG" then some (.xchg s d) else none
    | _, _ => none
  | [m, x] =>
    match refNamed x with
    | some r => if m = "PUSH" then some (.push r) else if m = "POP" then some (.pop r) else none
    | none => none
  | _ => none

/-- The line of an interface operation: instructions as R80 lists them, host requests "written
`READ r` and `WRITE r, v`, with v a number" (R80). R80 gives no notation for v: it is written in decimal,
with a minus sign where it is negative (DESIGN CHOICE, log 19), and one space follows the mnemonic and
the comma (DESIGN CHOICE, log 15). -/
def lineOf : SourceOp → String
  | .read r => "READ " ++ refName r
  | .write r n => "WRITE " ++ refName r ++ ", " ++ toString n
  | .execute i =>
    match disassemble i with
    | [m, x, y] => m ++ " " ++ x ++ ", " ++ y
    | tokens => " ".intercalate tokens

end Sys2Proof.Machine
end

