-- ==== Sys2Proof/Machine/Observe.lean ====
section
/-! DEFINITION. What the requester sees of the block without a request: the view outputs, the stack
ports and the snapshot (30_encoding.md R64, 40_register_access.md R94, R96, R97). All are functions of
the state, and none changes it. -/

namespace Sys2Proof.Machine

/-! ## View outputs (40_register_access.md R94): the cell's own bits -/

/-- `view_word[L]`. -/
def viewWordPort (L : Letter) (s : State) : Word := cellOf L s.cells

/-- `view_lo[L]`. -/
def viewLoPort (L : Letter) (s : State) : Byte := lowByteOf (cellOf L s.cells)

/-- `view_hi[L]`. -/
def viewHiPort (L : Letter) (s : State) : Byte := highByteOf (cellOf L s.cells)

/-- The view output of a RegisterRef, as the unsigned number its port shows. -/
def viewPort (r : RegisterRef) (s : State) : Nat :=
  match r.view with
  | .word => (viewWordPort r.letter s).toNat
  | .lowByte => (viewLoPort r.letter s).toNat
  | .highByte => (viewHiPort r.letter s).toNat

/-! ## Stack ports (40_register_access.md R96) -/

/-- `stack_depth`, as a number (log 11). -/
def stackDepthPort (s : State) : Nat := s.stack.length

/-- `peek_valid`. -/
def peekValid (i : Nat) (s : State) : Bool := i < s.stack.length

/-- `peek_data`: the entry at index i, 0 = top, or 0 past the depth. -/
def peekData (i : Nat) (s : State) : Word := (s.stack[i]?).getD 0

/-- `DEPTH_W`: "the least n with 2^n > STACK_DEPTH" (00_scope.md R9). An unbounded stack has none
(log 11). -/
def depthWidth : StackDepth → Option Nat
  | .unbounded => none
  | .bounded n => some (if n = 0 then 0 else n.log2 + 1)

/-! ## All outputs of a cycle (30_encoding.md R63, R64) -/

/-- Every output port during one cycle. -/
structure Outputs where
  rspValid : Bool
  rspStatus : BitVec 3
  rspData : Word
  rspName0 : RefCode
  rspName1 : RefCode
  rspWidth0 : BitVec 5
  rspWidth1 : BitVec 5
  viewWord : List (Letter × Word)
  viewLo : List (Letter × Byte)
  viewHi : List (Letter × Byte)
  stackDepth : Nat
  peekData : Word
  peekValid : Bool
deriving DecidableEq, Repr

def letters : List Letter := [.A, .B, .C, .D]

/-- The outputs during the cycle in which `inp` is on the input ports. Of the inputs only `peek_index`
reaches an output within its cycle (30_encoding.md R64). -/
def outputs (inp : Inputs) (s : State) : Outputs where
  rspValid := s.rsp.valid
  rspStatus := s.rsp.status.code
  rspData := s.rsp.data
  rspName0 := s.rsp.name0
  rspName1 := s.rsp.name1
  rspWidth0 := s.rsp.width0
  rspWidth1 := s.rsp.width1
  viewWord := letters.map fun L => (L, viewWordPort L s)
  viewLo := letters.map fun L => (L, viewLoPort L s)
  viewHi := letters.map fun L => (L, viewHiPort L s)
  stackDepth := stackDepthPort s
  peekData := Sys2Proof.Machine.peekData inp.peekIndex s
  peekValid := Sys2Proof.Machine.peekValid inp.peekIndex s

/-! ## The snapshot (40_register_access.md R97) -/

/-- The 12 views keyed by (letter, view), and the stack from the top. -/
structure Snapshot where
  views : List (RegisterRef × Nat)
  stack : List Word
deriving DecidableEq, Repr

def snapshot (s : State) : Snapshot where
  views := allRefs.map fun r => (r, viewPort r s)
  stack := s.stack

end Sys2Proof.Machine
end

