-- ==== Sys2Proof/Safety.lean ====
section
/-! DEFINITION. What a safe run is, in the words statements use: the invariants of 10_state.md R34, a
response whose ports agree with its status (30_encoding.md R63), a run that never stops
(60_exceptions.md R150), and what the next edge presents. -/

namespace Sys2Proof

/-- `STACK_DEPTH` is "a positive integer, or `unbounded`" (00_scope.md R9, log 3). -/
def Config.legal (c : Config) : Bool :=
  match c.stackDepth with
  | .unbounded => true
  | .bounded n => 0 < n

/-- The instruction with its letters renamed, for the statement that the four letters are treated
alike (10_state.md R25). -/
def RegisterRef.rename (f : Letter → Letter) (r : RegisterRef) : RegisterRef := ⟨f r.letter, r.view⟩

def Instr.rename (f : Letter → Letter) : Instr → Instr
  | .mov s d => .mov (s.rename f) (d.rename f)
  | .xchg s d => .xchg (s.rename f) (d.rename f)
  | .push s => .push (s.rename f)
  | .pop d => .pop (d.rename f)

namespace Machine

/-! ## Invariants -/

/-- "when STACK_DEPTH is finite, `depth(stack) <= STACK_DEPTH`" (10_state.md R34). -/
def withinDepth (s : State) : Bool :=
  match s.config.stackDepth with
  | .unbounded => true
  | .bounded n => s.stack.length ≤ n

/-- The invariant of 10_state.md R34 that the types do not already give, with the parameter legal. -/
abbrev State.Inv (s : State) : Prop := s.config.legal = true ∧ withinDepth s = true

/-- The width a RegisterRef code stands for on a width port: 16 for a Word view, 8 for a byte view
(00_scope.md R12). -/
def portWidth (c : RefCode) : BitVec 5 := if c.extractLsb' 0 2 = 0 then 16 else 8

/-- The payload ports agree with the status (30_encoding.md R63, 60_exceptions.md R152 to R155): a
port its status does not use is 0, the names are codes of RegisterRefs, and the widths of a
SizeMismatch are its operands' and differ. -/
def responseWellFormed (r : Response) : Bool :=
  match r.status with
  | .ok => r.name0 == 0 && r.name1 == 0 && r.width0 == 0 && r.width1 == 0
  | .sizeMismatch =>
    r.data == 0 && legalRef r.name0 && legalRef r.name1
      && r.width0 == portWidth r.name0 && r.width1 == portWidth r.name1 && r.width0 != r.width1
  | .invalidOperandWidth =>
    r.data == 0 && legalRef r.name0 && portWidth r.name0 == 8
      && r.name1 == 0 && r.width0 == 0 && r.width1 == 0
  | .stackUnderflow | .stackOverflow | .illegalEncoding =>
    r.data == 0 && r.name0 == 0 && r.name1 == 0 && r.width0 == 0 && r.width1 == 0

/-! ## What the next edge presents -/

/-- The next edge accepts the request on these inputs (30_encoding.md R65). -/
def State.accepts (s : State) (inp : Inputs) : Prop :=
  s.inputs.head? = some inp ∧ inp.rst = false ∧ inp.reqValid = true

/-- The next edge accepts an EXEC of a word that decodes to i. -/
def State.presents (s : State) (i : Instr) : Prop :=
  ∃ inp, s.accepts inp ∧ inp.reqKind = 0 ∧ decode inp.reqInstr = .ok i

/-- The next edge has `rst = 1` (70_reset_and_hazards.md R180). -/
def State.presentsReset (s : State) : Prop := ∃ inp, s.inputs.head? = some inp ∧ inp.rst = true

/-! ## Runs -/

/-- A run of k edges that does not stop. -/
def RunsThrough (k : Nat) (s : State) : Prop := ∃ t, Host.Core.run Sys2Proof.core k s = .next t

/-- The step from t is an edge that neither pushes, nor pops, nor resets: whatever else it presents,
an unsuccessful PUSH or POP included. -/
def LeavesStackAlone (t u : State) : Prop :=
  step t = .next u ∧ ¬ t.presentsReset ∧
    ((∀ r, ¬ t.presents (.push r) ∧ ¬ t.presents (.pop r)) ∨ u.rsp.status ≠ .ok)

/-- From s, steps in which the successful PUSHes are of the values vs, first pushed first, "and no POP"
succeeds, lead to t (42_stack.md R134). Other requests may stand between them. -/
inductive Pushes (s : State) : List Word → State → Prop where
  | done : Pushes s [] s
  | push {vs : List Word} {t u : State} (r : RegisterRef) (before : Pushes s vs t)
      (presented : t.presents (.push r)) (stepped : step t = .next u) (ok : u.rsp.status = .ok) :
      Pushes s (vs ++ [viewRead r t.cells]) u
  | other {vs : List Word} {t u : State} (before : Pushes s vs t) (stepped : LeavesStackAlone t u) :
      Pushes s vs u

/-- From s, steps in which the successful POPs deliver the values vs to their destinations, first
popped first, and no PUSH succeeds, lead to t (42_stack.md R134). -/
inductive Pops (s : State) : List Word → State → Prop where
  | done : Pops s [] s
  | pop {vs : List Word} {t u : State} (r : RegisterRef) (before : Pops s vs t)
      (presented : t.presents (.pop r)) (stepped : step t = .next u) (ok : u.rsp.status = .ok) :
      Pops s (vs ++ [viewRead r u.cells]) u
  | other {vs : List Word} {t u : State} (before : Pops s vs t) (stepped : LeavesStackAlone t u) :
      Pops s vs u

end Machine

end Sys2Proof
end

