-- ==== Sys2Proof/Certificates/Slice0/Obligations.lean ====
section
/-! DEFINITION. The statements for the provers. Each is about every state, hence about every value of
the open parameter `STACK_DEPTH` (log 1). -/

open Sys2Proof Sys2Proof.Machine

/-! ## Encoding (30_encoding.md) -/

/-- Decoding an encoded instruction gives it back, every operand at every value
(30_encoding.md sections 2 and 4). -/
def Obligations.DecodeOfEncode : Prop :=
  ∀ i : Instr, i.wellFormed = true → decode (encode i) = .ok i

/-- Each legal word is the encoding of the one instruction it decodes to
(30_encoding.md sections 2 and 4). -/
def Obligations.EncodeOfDecode : Prop :=
  ∀ (w : Word) (i : Instr), decode w = .ok i → encode i = w

/-- R79: a word decodes to a row's instruction iff it has the row's match under its mask and the row's
extra condition holds; no word matches two rows. -/
def Obligations.WordDecodesIffItMatchesItsRow : Prop :=
  (∀ w : Word,
    ((∃ s d, decode w = .ok (.mov s d)) ↔
      w &&& 0xFF00 = 0x1000 ∧ w.extractLsb' 4 2 ≠ 3 ∧ w.extractLsb' 0 2 ≠ 3) ∧
    ((∃ s d, decode w = .ok (.xchg s d)) ↔
      w &&& 0xFF00 = 0x2000 ∧ w.extractLsb' 4 2 ≠ 3 ∧ w.extractLsb' 0 2 ≠ 3) ∧
    ((∃ s, decode w = .ok (.push s)) ↔ w &&& 0xFF0F = 0x3000 ∧ w.extractLsb' 4 2 ≠ 3) ∧
    ((∃ d, decode w = .ok (.pop d)) ↔ w &&& 0xFFF0 = 0x4000 ∧ w.extractLsb' 0 2 ≠ 3)) ∧
  (∀ (w : Word) (i : Instr), decode w = .ok i →
    ∀ row ∈ opcodeTable, row.encodes w = true ↔ row = i.row) ∧
  (∀ w : Word, legalWord w = true → ∃ i, decode w = .ok i)

/-- R77: which words and requests are illegal, that each raises IllegalEncoding and changes neither a
cell nor the stack, and that 312 words are legal. -/
def Obligations.IllegalRequestRaisesIllegalEncoding : Prop :=
  (∀ w : Word, (¬ ∃ i, decode w = .ok i) ↔
    (opField w ≠ 1 ∧ opField w ≠ 2 ∧ opField w ≠ 3 ∧ opField w ≠ 4) ∨ rsvField w ≠ 0 ∨
    (opField w ≠ 4 ∧ (srcField w).extractLsb' 0 2 = 3) ∨
    (opField w ≠ 3 ∧ (dstField w).extractLsb' 0 2 = 3) ∨
    (opField w = 3 ∧ dstField w ≠ 0) ∨ (opField w = 4 ∧ srcField w ≠ 0)) ∧
  (∀ (s : State) (inp : Inputs) (rest : List Inputs),
    s.inputs = inp :: rest → inp.rst = false → inp.reqValid = true →
    (inp.reqKind = 0 ∧ (¬ ∃ i, decode inp.reqInstr = .ok i)) ∨
      ((inp.reqKind = 1 ∨ inp.reqKind = 2) ∧ inp.reqRef.extractLsb' 0 2 = 3) ∨ inp.reqKind = 3 →
    step s = .next { s with inputs := rest, rsp := ⟨true, .illegalEncoding, 0, 0, 0, 0, 0⟩ }) ∧
  (∃ ws : List Word, ws.Nodup ∧ ws.length = 312 ∧ ∀ w : Word, w ∈ ws ↔ ∃ i, decode w = .ok i)

/-- The example words, legal and illegal (30_encoding.md section 5, R82). That the six illegal ones are
rejected is the spec's; the reason named for each is the model's choice (log 10), since the spec's
`decode` answers Illegal alone (R74). -/
def Obligations.ExampleWordsDecode : Prop :=
  decode 0x1004 = .ok (.mov ⟨.A, .word⟩ ⟨.B, .word⟩) ∧
  decode 0x1005 = .ok (.mov ⟨.A, .word⟩ ⟨.B, .lowByte⟩) ∧
  decode 0x1016 = .ok (.mov ⟨.A, .lowByte⟩ ⟨.B, .highByte⟩) ∧
  decode 0x2004 = .ok (.xchg ⟨.A, .word⟩ ⟨.B, .word⟩) ∧
  decode 0x2000 = .ok (.xchg ⟨.A, .word⟩ ⟨.A, .word⟩) ∧
  decode 0x2012 = .ok (.xchg ⟨.A, .lowByte⟩ ⟨.A, .highByte⟩) ∧
  decode 0x3000 = .ok (.push ⟨.A, .word⟩) ∧
  decode 0x3040 = .ok (.push ⟨.B, .word⟩) ∧
  decode 0x3010 = .ok (.push ⟨.A, .lowByte⟩) ∧
  decode 0x4000 = .ok (.pop ⟨.A, .word⟩) ∧
  decode 0x4008 = .ok (.pop ⟨.C, .word⟩) ∧
  decode 0x400C = .ok (.pop ⟨.D, .word⟩) ∧
  decode 0x4001 = .ok (.pop ⟨.A, .lowByte⟩) ∧
  decode 0x0000 = .error .reservedOpcode ∧ decode 0x5000 = .error .reservedOpcode ∧
  decode 0x1100 = .error .reservedField ∧ decode 0x1003 = .error .reservedView ∧
  decode 0x3001 = .error .unusedField ∧ decode 0x4010 = .error .unusedField

/-- R81's table: each name has its code and its RegisterRef, the names are told apart, and the four
remaining codes name nothing (the spec itself presumes the names its source does not use, log 14). -/
def Obligations.RegisterNamesAndCodes : Prop :=
  (∀ r : RegisterRef, refNamed (refName r) = some r ∧ refOf r.code = some r) ∧
  (∀ p ∈ [("AX", 0x0#4, RegisterRef.mk .A .word), ("AL", 0x1#4, RegisterRef.mk .A .lowByte),
      ("AH", 0x2#4, RegisterRef.mk .A .highByte), ("BX", 0x4#4, RegisterRef.mk .B .word),
      ("BL", 0x5#4, RegisterRef.mk .B .lowByte), ("BH", 0x6#4, RegisterRef.mk .B .highByte),
      ("CX", 0x8#4, RegisterRef.mk .C .word), ("CL", 0x9#4, RegisterRef.mk .C .lowByte),
      ("CH", 0xA#4, RegisterRef.mk .C .highByte), ("DX", 0xC#4, RegisterRef.mk .D .word),
      ("DL", 0xD#4, RegisterRef.mk .D .lowByte), ("DH", 0xE#4, RegisterRef.mk .D .highByte)],
    refName p.2.2 = p.1 ∧ p.2.2.code = p.2.1) ∧
  (∀ c ∈ [0x3#4, 0x7#4, 0xB#4, 0xF#4], refOf c = none)

/-- Assembling an instruction's tokens gives it back, and a token list assembles to nothing but the
instruction whose tokens it is (30_encoding.md section 5; the token form is the model's, log 15). -/
def Obligations.AssembleAndDisassembleAgree : Prop :=
  (∀ i : Instr, assemble (disassemble i) = some i) ∧
  (∀ (ts : List String) (i : Instr), assemble ts = some i → disassemble i = ts)

/-! ## The register file (10_state.md, 40_register_access.md) -/

/-- R23: the Word view is the two byte views; a write is seen through the overlapping views of its
letter, leaves the other half of its cell, and never affects another letter. -/
def Obligations.ViewsOfOneLetterAlias : Prop :=
  ∀ (c : Cells) (L : Letter) (v : Word),
    viewRead ⟨L, .word⟩ c = (viewRead ⟨L, .highByte⟩ c <<< 8) ||| viewRead ⟨L, .lowByte⟩ c ∧
    (viewRead ⟨L, .word⟩ (viewWrite ⟨L, .word⟩ v c) = v ∧
      viewRead ⟨L, .lowByte⟩ (viewWrite ⟨L, .word⟩ v c) = v &&& 0xFF ∧
      viewRead ⟨L, .highByte⟩ (viewWrite ⟨L, .word⟩ v c) = v >>> 8) ∧
    (viewRead ⟨L, .lowByte⟩ (viewWrite ⟨L, .lowByte⟩ v c) = v &&& 0xFF ∧
      viewRead ⟨L, .highByte⟩ (viewWrite ⟨L, .lowByte⟩ v c) = viewRead ⟨L, .highByte⟩ c ∧
      viewRead ⟨L, .word⟩ (viewWrite ⟨L, .lowByte⟩ v c) =
        (viewRead ⟨L, .word⟩ c &&& 0xFF00) ||| (v &&& 0xFF)) ∧
    (viewRead ⟨L, .highByte⟩ (viewWrite ⟨L, .highByte⟩ v c) = v &&& 0xFF ∧
      viewRead ⟨L, .lowByte⟩ (viewWrite ⟨L, .highByte⟩ v c) = viewRead ⟨L, .lowByte⟩ c ∧
      viewRead ⟨L, .word⟩ (viewWrite ⟨L, .highByte⟩ v c) =
        (viewRead ⟨L, .word⟩ c &&& 0x00FF) ||| ((v &&& 0xFF) <<< 8)) ∧
    (∀ r : RegisterRef, r.letter ≠ L → cellOf L (viewWrite r v c) = cellOf L c)

/-- R90: READ returns the view, zero-extended, and writes nothing but the response; a code that names
no view raises IllegalEncoding. -/
def Obligations.ReadReturnsTheView : Prop :=
  ∀ (s : State) (inp : Inputs) (rest : List Inputs),
    s.inputs = inp :: rest → inp.rst = false → inp.reqValid = true → inp.reqKind = 1 →
    (∀ L : Letter,
      (inp.reqRef = L.code ++ 0#2 →
        step s = .next { s with inputs := rest, rsp := ⟨true, .ok, cellOf L s.cells, 0, 0, 0, 0⟩ }) ∧
      (inp.reqRef = L.code ++ 1#2 →
        step s = .next { s with inputs := rest, rsp := ⟨true, .ok, cellOf L s.cells &&& 0xFF, 0, 0, 0, 0⟩ }) ∧
      (inp.reqRef = L.code ++ 2#2 →
        step s = .next { s with inputs := rest, rsp := ⟨true, .ok, (cellOf L s.cells >>> 8) &&& 0xFF, 0, 0, 0, 0⟩ })) ∧
    (inp.reqRef.extractLsb' 0 2 = 3 →
      step s = .next { s with inputs := rest, rsp := ⟨true, .illegalEncoding, 0, 0, 0, 0, 0⟩ })

/-- R91: after any number of READs, legal or not, the cells and the stack are what they were, and a
READ returns what it would have returned before them. -/
def Obligations.ReadsHaveNoEffect : Prop :=
  ∀ (reads : List Inputs) (s : State) (r : RegisterRef) (rest : List Inputs),
    (∀ inp ∈ reads, inp.rst = false ∧ inp.reqValid = true ∧ inp.reqKind = 1) →
    s.inputs = reads ++ readInputs r :: rest →
    ∃ t, Host.Core.run Sys2Proof.core (reads.length + 1) s = .next t ∧
      t.cells = s.cells ∧ t.stack = s.stack ∧ t.config = s.config ∧ t.inputs = rest ∧
      t.rsp = ⟨true, .ok, viewRead r s.cells, 0, 0, 0, 0⟩

/-- R92: WRITE stores `v[15:0]` or `v[7:0]` into the view and keeps the rest of the cell, the other
cells and the stack; a code that names no view raises IllegalEncoding. -/
def Obligations.WriteStoresIntoTheView : Prop :=
  ∀ (s : State) (inp : Inputs) (rest : List Inputs),
    s.inputs = inp :: rest → inp.rst = false → inp.reqValid = true → inp.reqKind = 2 →
    (∀ L : Letter,
      (inp.reqRef = L.code ++ 0#2 →
        ∃ c, step s = .next { s with cells := c, inputs := rest, rsp := ⟨true, .ok, 0, 0, 0, 0, 0⟩ } ∧
          ∀ M, cellOf M c = if M = L then inp.reqWdata else cellOf M s.cells) ∧
      (inp.reqRef = L.code ++ 1#2 →
        ∃ c, step s = .next { s with cells := c, inputs := rest, rsp := ⟨true, .ok, 0, 0, 0, 0, 0⟩ } ∧
          ∀ M, cellOf M c =
            if M = L then (cellOf M s.cells &&& 0xFF00) ||| (inp.reqWdata &&& 0xFF)
            else cellOf M s.cells) ∧
      (inp.reqRef = L.code ++ 2#2 →
        ∃ c, step s = .next { s with cells := c, inputs := rest, rsp := ⟨true, .ok, 0, 0, 0, 0, 0⟩ } ∧
          ∀ M, cellOf M c =
            if M = L then (cellOf M s.cells &&& 0x00FF) ||| ((inp.reqWdata &&& 0xFF) <<< 8)
            else cellOf M s.cells)) ∧
    (inp.reqRef.extractLsb' 0 2 = 3 →
      step s = .next { s with inputs := rest, rsp := ⟨true, .illegalEncoding, 0, 0, 0, 0, 0⟩ })

/-- R93: an integer write stores `n mod 2^16` in a Word view and `n mod 2^8` in a byte view; for a
negative integer the spec itself presumes it (log 13). -/
def Obligations.IntegerWriteReducesTheInteger : Prop :=
  ∀ (n : Int) (L : Letter) (c : Cells),
    ((wdataOfInt n).toNat : Int) = n % 2 ^ 16 ∧
    ((viewRead ⟨L, .word⟩ (viewWrite ⟨L, .word⟩ (wdataOfInt n) c)).toNat : Int) = n % 2 ^ 16 ∧
    ((viewRead ⟨L, .lowByte⟩ (viewWrite ⟨L, .lowByte⟩ (wdataOfInt n) c)).toNat : Int) = n % 2 ^ 8 ∧
    ((viewRead ⟨L, .highByte⟩ (viewWrite ⟨L, .highByte⟩ (wdataOfInt n) c)).toNat : Int) = n % 2 ^ 8

/-- R95: a view output equals the `rsp_data` of a READ of its RegisterRef, as an unsigned number. -/
def Obligations.ViewOutputsAgreeWithRead : Prop :=
  ∀ (s : State) (r : RegisterRef) (rest : List Inputs),
    ∃ t, step (s.withInputs (readInputs r :: rest)) = .next t ∧
      t.rsp.status = .ok ∧ t.rsp.data.toNat = viewPort r s

/-- R96: `stack_depth` and the peek port; the peeked entries are the whole stack from the top. -/
def Obligations.StackPortsShowTheStack : Prop :=
  ∀ s : State,
    stackDepthPort s = s.stack.length ∧
    (∀ (i : Nat) (h : i < s.stack.length), peekValid i s = true ∧ peekData i s = s.stack[i]) ∧
    (∀ i : Nat, s.stack.length ≤ i → peekValid i s = false ∧ peekData i s = 0) ∧
    (List.range (stackDepthPort s)).map (peekData · s) = s.stack

/-- The snapshot holds each of the 12 views once, with the value a read of it gives, and the stack from
the top (40_register_access.md, the snapshot). -/
def Obligations.SnapshotHoldsEveryViewAndTheStack : Prop :=
  ∀ s : State,
    (snapshot s).views.length = 12 ∧
    (∀ (r : RegisterRef) (n : Nat), (r, n) ∈ (snapshot s).views ↔ n = (viewRead r s.cells).toNat) ∧
    (snapshot s).stack = s.stack

/-- `DEPTH_W` is the least width that holds every depth up to a finite `STACK_DEPTH`, so that
`stack_depth` fits its port (00_scope.md section 4). -/
def Obligations.DepthWidthIsTheLeastThatFits : Prop :=
  ∀ (s : State) (n : Nat), s.config.stackDepth = .bounded n → s.Inv →
    ∃ k, depthWidth s.config.stackDepth = some k ∧ n < 2 ^ k ∧ (∀ j, n < 2 ^ j → k ≤ j) ∧
      stackDepthPort s < 2 ^ k

/-! ## Compatibility (41_transfer.md) -/

/-- R111: compatibility reads only the two views, and splits the 144 ordered pairs into 16 Word/Word,
64 byte/byte and 64 cross-class, of which the first 80 are compatible. -/
def Obligations.CompatibilityReadsOnlyTheViews : Prop :=
  (∀ s d : RegisterRef, compatible s d = true ↔ (s.view = .word ↔ d.view = .word)) ∧
  (∀ (s d : RegisterRef) (L M : Letter), compatible ⟨L, s.view⟩ ⟨M, d.view⟩ = compatible s d) ∧
  (allRefs.product allRefs).length = 144 ∧
  ((allRefs.product allRefs).filter fun p => p.1.view == .word && p.2.view == .word).length = 16 ∧
  ((allRefs.product allRefs).filter fun p => p.1.view != .word && p.2.view != .word).length = 64 ∧
  ((allRefs.product allRefs).filter fun p => compatible p.1 p.2).length = 80 ∧
  ((allRefs.product allRefs).filter fun p => !compatible p.1 p.2).length = 64

/-- R112: two compatible RegisterRefs that share a bit are the same; otherwise a write through the one
is not seen by a read through the other. -/
def Obligations.CompatibleRefsAreEqualOrDisjoint : Prop :=
  ∀ s d : RegisterRef,
    (compatible s d = true → sharesBits s d = true → s = d) ∧
    (sharesBits s d = false → ∀ (v : Word) (c : Cells), viewRead s (viewWrite d v c) = viewRead s c)

/-! ## MOV and XCHG (41_transfer.md) -/

/-- R114: MOV copies the source view into a compatible destination, leaves the source unchanged, and is
a no-op on itself; an incompatible pair ends in SizeMismatch with nothing changed but the response. -/
def Obligations.MovCopiesOrRaisesSizeMismatch : Prop :=
  ∀ (src dst : RegisterRef) (s : State),
    encode (.mov src dst) = 0b00010000#8 ++ src.code ++ dst.code ∧
    (compatible src dst = true →
      exec (.mov src dst) s = .next { s with
        cells := viewWrite dst (viewRead src s.cells) s.cells
        rsp := ⟨true, .ok, 0, 0, 0, 0, 0⟩ } ∧
      viewRead dst (viewWrite dst (viewRead src s.cells) s.cells) = viewRead src s.cells ∧
      viewRead src (viewWrite dst (viewRead src s.cells) s.cells) = viewRead src s.cells ∧
      (src = dst → viewWrite dst (viewRead src s.cells) s.cells = s.cells)) ∧
    (compatible src dst = false →
      exec (.mov src dst) s = .next { s with
        rsp := ⟨true, .sizeMismatch, 0, src.code, dst.code,
          BitVec.ofNat 5 (widthOf src), BitVec.ofNat 5 (widthOf dst)⟩ })

/-- R116: XCHG swaps two compatible views, both read before either is written, is a no-op on itself and
is symmetric; an incompatible pair ends in SizeMismatch with nothing changed but the response. -/
def Obligations.XchgSwapsOrRaisesSizeMismatch : Prop :=
  ∀ (src dst : RegisterRef) (s : State),
    encode (.xchg src dst) = 0b00100000#8 ++ src.code ++ dst.code ∧
    (compatible src dst = true →
      ∃ c : Cells,
        c = viewWrite dst (viewRead src s.cells) (viewWrite src (viewRead dst s.cells) s.cells) ∧
        exec (.xchg src dst) s = .next { s with cells := c, rsp := ⟨true, .ok, 0, 0, 0, 0, 0⟩ } ∧
        exec (.xchg dst src) s = .next { s with cells := c, rsp := ⟨true, .ok, 0, 0, 0, 0, 0⟩ } ∧
        viewRead src c = viewRead dst s.cells ∧ viewRead dst c = viewRead src s.cells ∧
        (src = dst → c = s.cells)) ∧
    (compatible src dst = false →
      exec (.xchg src dst) s = .next { s with
        rsp := ⟨true, .sizeMismatch, 0, src.code, dst.code,
          BitVec.ofNat 5 (widthOf src), BitVec.ofNat 5 (widthOf dst)⟩ })

/-- R117: the two writes of XCHG may be applied in either order. -/
def Obligations.XchgWritesCommute : Prop :=
  ∀ (s d : RegisterRef) (c : Cells), compatible s d = true →
    viewWrite d (viewRead s c) (viewWrite s (viewRead d c) c) =
      viewWrite s (viewRead d c) (viewWrite d (viewRead s c) c) ∧
    viewSwap s d c = viewWrite d (viewRead s c) (viewWrite s (viewRead d c) c)

/-- What MOV and XCHG leave unchanged: every view that shares no bit with a destination (of XCHG, with
either operand), the stack, the parameter and the inputs to come (41_transfer.md, 10_state.md). -/
def Obligations.TransferLeavesTheRestUnchanged : Prop :=
  ∀ (src dst : RegisterRef) (s t : State),
    (exec (.mov src dst) s = .next t →
      t.stack = s.stack ∧ t.config = s.config ∧ t.inputs = s.inputs ∧
      (∀ r, sharesBits r dst = false → viewRead r t.cells = viewRead r s.cells)) ∧
    (exec (.xchg src dst) s = .next t →
      t.stack = s.stack ∧ t.config = s.config ∧ t.inputs = s.inputs ∧
      (∀ r, sharesBits r src = false → sharesBits r dst = false →
        viewRead r t.cells = viewRead r s.cells))

/-- A second identical MOV changes no cell; a second identical XCHG restores the cells; a second
identical write through a view changes no cell (20_memory.md section 4). -/
def Obligations.RepeatedTransferIsIdempotentOrRestores : Prop :=
  (∀ (src dst : RegisterRef) (s t u : State),
    exec (.mov src dst) s = .next t → exec (.mov src dst) t = .next u → u.cells = t.cells) ∧
  (∀ (src dst : RegisterRef) (s t u : State),
    exec (.xchg src dst) s = .next t → exec (.xchg src dst) t = .next u → u.cells = s.cells) ∧
  (∀ (r : RegisterRef) (v : Word) (c : Cells), viewWrite r v (viewWrite r v c) = viewWrite r v c)

/-! ## PUSH and POP (42_stack.md) -/

/-- R130: PUSH of a Word view onto a stack that is not full makes its value the top and changes no
cell; a full stack ends in StackOverflow, whatever the operand; else a byte view ends in
InvalidOperandWidth. -/
def Obligations.PushPushesOrRaises : Prop :=
  ∀ (src : RegisterRef) (s : State),
    encode (.push src) = 0b00110000#8 ++ src.code ++ 0#4 ∧
    (s.config.stackDepth = .bounded s.stack.length →
      exec (.push src) s = .next { s with rsp := ⟨true, .stackOverflow, 0, 0, 0, 0, 0⟩ }) ∧
    (s.config.stackDepth ≠ .bounded s.stack.length → src.view ≠ .word →
      exec (.push src) s = .next { s with
        rsp := ⟨true, .invalidOperandWidth, 0, src.code, 0, 0, 0⟩ }) ∧
    (s.config.stackDepth ≠ .bounded s.stack.length → src.view = .word →
      exec (.push src) s = .next { s with
        stack := cellOf src.letter s.cells :: s.stack
        rsp := ⟨true, .ok, 0, 0, 0, 0, 0⟩ })

/-- R132: POP into a Word view removes the top and puts all 16 bits of it in the destination; an empty
stack ends in StackUnderflow, whatever the operand; else a byte view ends in InvalidOperandWidth with
the value left on the stack. -/
def Obligations.PopPopsOrRaises : Prop :=
  ∀ (dst : RegisterRef) (s : State),
    encode (.pop dst) = 0b010000000000#12 ++ dst.code ∧
    (s.stack = [] →
      exec (.pop dst) s = .next { s with rsp := ⟨true, .stackUnderflow, 0, 0, 0, 0, 0⟩ }) ∧
    (∀ (v : Word) (rest : List Word), s.stack = v :: rest → dst.view ≠ .word →
      exec (.pop dst) s = .next { s with
        rsp := ⟨true, .invalidOperandWidth, 0, dst.code, 0, 0, 0⟩ }) ∧
    (∀ (v : Word) (rest : List Word), s.stack = v :: rest → dst.view = .word →
      ∃ c, exec (.pop dst) s = .next { s with
          stack := rest
          cells := c
          rsp := ⟨true, .ok, 0, 0, 0, 0, 0⟩ } ∧
        ∀ M, cellOf M c = if M = dst.letter then v else cellOf M s.cells)

/-- What PUSH and POP leave unchanged: PUSH every cell, POP every cell but its destination's letter,
and both the entries below the top, the parameter and the inputs to come (42_stack.md, 10_state.md). -/
def Obligations.StackInstructionsLeaveTheRestUnchanged : Prop :=
  (∀ (src : RegisterRef) (s t : State), exec (.push src) s = .next t →
    t.cells = s.cells ∧ t.config = s.config ∧ t.inputs = s.inputs ∧ s.stack <:+ t.stack) ∧
  (∀ (dst : RegisterRef) (s t : State), exec (.pop dst) s = .next t →
    (∀ L, L ≠ dst.letter → cellOf L t.cells = cellOf L s.cells) ∧
    t.config = s.config ∧ t.inputs = s.inputs ∧ t.stack <:+ s.stack)

/-- R134: a POP after a PUSH returns the value and the stack; and after successful PUSHes of v1 … vn and
no POP, n successful POPs return vn … v1, whatever other requests stand between. -/
def Obligations.StackIsLastInFirstOut : Prop :=
  (∀ (s t : State) (r r2 : RegisterRef), exec (.push r) s = .next t → t.rsp.status = .ok →
    r2.view = .word →
    ∃ u, exec (.pop r2) t = .next u ∧ u.rsp.status = .ok ∧ u.stack = s.stack ∧
      viewRead r2 u.cells = viewRead r s.cells) ∧
  (∀ (s t u : State) (vs ws : List Word), Pushes s vs t → Pops t ws u → ws.length = vs.length →
    ws = vs.reverse ∧ u.stack = s.stack)

/-- R135: only PUSH and POP change the stack, each successful one by exactly one entry; a failed one and
every other request leave it; only reset empties it. -/
def Obligations.OnlyPushAndPopChangeTheStack : Prop :=
  ∀ s t : State, step s = .next t →
    (∀ r, s.presents (.push r) → t.rsp.status = .ok → t.stack.length = s.stack.length + 1) ∧
    (∀ r, s.presents (.pop r) → t.rsp.status = .ok → t.stack.length + 1 = s.stack.length) ∧
    (∀ r, s.presents (.push r) ∨ s.presents (.pop r) → t.rsp.status ≠ .ok → t.stack = s.stack) ∧
    ((∀ r, ¬ s.presents (.push r) ∧ ¬ s.presents (.pop r)) → ¬ s.presentsReset → t.stack = s.stack) ∧
    (s.presentsReset → t.stack = [])

/-! ## Errors (60_exceptions.md) -/

/-- Every step from every state answers a next state, and so does a run of any length
(60_exceptions.md section 1: "The step function is total on every request"). -/
def Obligations.EveryRunAnswersNext : Prop :=
  (∀ s : State, ∃ t, step s = .next t) ∧ (∀ (k : Nat) (s : State), RunsThrough k s)

/-- The numbers of the status codes, which tell the six statuses apart (60_exceptions.md section 1). -/
def Obligations.StatusCodesAreTheSpecs : Prop :=
  Status.ok.code = 0 ∧ Status.sizeMismatch.code = 1 ∧ Status.invalidOperandWidth.code = 2 ∧
  Status.stackUnderflow.code = 3 ∧ Status.stackOverflow.code = 4 ∧ Status.illegalEncoding.code = 5 ∧
  (∀ a b : Status, a.code = b.code → a = b)

/-- R152: SizeMismatch is the answer exactly to a MOV or XCHG of an incompatible pair, and carries the
two widths, which differ, and the two codes. -/
def Obligations.SizeMismatchExactlyOnIncompatibleOperands : Prop :=
  ∀ (s t : State) (inp : Inputs), s.accepts inp → step s = .next t →
    (t.rsp.status = .sizeMismatch ↔
      ∃ src dst, (s.presents (.mov src dst) ∨ s.presents (.xchg src dst)) ∧ compatible src dst = false) ∧
    (∀ src dst, s.presents (.mov src dst) ∨ s.presents (.xchg src dst) → compatible src dst = false →
      t.rsp = ⟨true, .sizeMismatch, 0, src.code, dst.code,
        BitVec.ofNat 5 (widthOf src), BitVec.ofNat 5 (widthOf dst)⟩ ∧
      (t.rsp.width0.toNat = 16 ∧ t.rsp.width1.toNat = 8 ∨
        t.rsp.width0.toNat = 8 ∧ t.rsp.width1.toNat = 16))

/-- R153: InvalidOperandWidth is the answer exactly to a PUSH of a byte view (onto a stack that is not
full) and a POP into a byte view from a stack that is not empty, and carries the operand's code. -/
def Obligations.InvalidOperandWidthExactlyOnByteViews : Prop :=
  ∀ (s t : State) (inp : Inputs), s.accepts inp → step s = .next t →
    (t.rsp.status = .invalidOperandWidth ↔
      ∃ r : RegisterRef, r.view ≠ .word ∧
        (s.presents (.push r) ∧ s.config.stackDepth ≠ .bounded s.stack.length ∨
          s.presents (.pop r) ∧ s.stack ≠ [])) ∧
    (t.rsp.status = .invalidOperandWidth →
      ∀ r, s.presents (.push r) ∨ s.presents (.pop r) →
        t.rsp = ⟨true, .invalidOperandWidth, 0, r.code, 0, 0, 0⟩)

/-- StackUnderflow is the answer exactly to a POP of an empty stack (R154), StackOverflow exactly to a
PUSH onto a full one (R130's StackOverflow clause, status 4 of R151), and neither records anything: the
data and every payload port are 0 (R154, R63). -/
def Obligations.StackErrorsExactlyAtTheEnds : Prop :=
  ∀ (s t : State) (inp : Inputs), s.accepts inp → step s = .next t →
    (t.rsp.status = .stackUnderflow ↔ (∃ r, s.presents (.pop r)) ∧ s.stack = []) ∧
    (t.rsp.status = .stackOverflow ↔
      (∃ r, s.presents (.push r)) ∧ s.config.stackDepth = .bounded s.stack.length) ∧
    (t.rsp.status = .stackUnderflow → t.rsp = ⟨true, .stackUnderflow, 0, 0, 0, 0, 0⟩) ∧
    (t.rsp.status = .stackOverflow → t.rsp = ⟨true, .stackOverflow, 0, 0, 0, 0, 0⟩)

/-- R155: IllegalEncoding is the answer exactly to an EXEC whose word does not decode, a request of the
reserved kind, and a READ or WRITE whose code names no view; it records nothing. -/
def Obligations.IllegalEncodingExactlyOnIllegalRequests : Prop :=
  ∀ (s t : State) (inp : Inputs), s.accepts inp → step s = .next t →
    (t.rsp.status = .illegalEncoding ↔
      (inp.reqKind = 0 ∧ (¬ ∃ i, decode inp.reqInstr = .ok i)) ∨ inp.reqKind = 3 ∨
        ((inp.reqKind = 1 ∨ inp.reqKind = 2) ∧ inp.reqRef.extractLsb' 0 2 = 3)) ∧
    (t.rsp.status = .illegalEncoding → t.rsp = ⟨true, .illegalEncoding, 0, 0, 0, 0, 0⟩)

/-- R156: a request that ends in an error changes nothing but the response outputs. -/
def Obligations.ErrorsAreAtomic : Prop :=
  ∀ (s t : State) (inp : Inputs), s.accepts inp → step s = .next t → t.rsp.status ≠ .ok →
    t = { s with rsp := t.rsp, inputs := s.inputs.tail }

/-- R157: every accepted request reports the first error that applies, in the order IllegalEncoding;
for PUSH StackOverflow, InvalidOperandWidth; for POP StackUnderflow, InvalidOperandWidth; for MOV and
XCHG SizeMismatch; and OK where none does. -/
def Obligations.FirstErrorIsReported : Prop :=
  ∀ (s t : State) (inp : Inputs), s.accepts inp → step s = .next t →
    t.rsp.valid = true ∧
    (legalRequest inp.reqKind inp.reqInstr inp.reqRef = false → t.rsp.status = .illegalEncoding) ∧
    (∀ r, s.presents (.push r) → t.rsp.status =
      if s.config.stackDepth = .bounded s.stack.length then .stackOverflow
      else if r.view ≠ .word then .invalidOperandWidth else .ok) ∧
    (∀ r, s.presents (.pop r) → t.rsp.status =
      if s.stack = [] then .stackUnderflow
      else if r.view ≠ .word then .invalidOperandWidth else .ok) ∧
    (∀ src dst, s.presents (.mov src dst) ∨ s.presents (.xchg src dst) → t.rsp.status =
      if compatible src dst then .ok else .sizeMismatch) ∧
    (inp.reqKind = 1 ∨ inp.reqKind = 2 → legalRef inp.reqRef = true → t.rsp.status = .ok)

/-- No request reads the response registers: whatever the last request left in them, an error included,
an instruction and an accepted request end in the same state (10_state.md section 4, 60_exceptions.md
section 2). -/
def Obligations.NoRequestReadsTheResponse : Prop :=
  (∀ (i : Instr) (s : State) (r : Response), exec i { s with rsp := r } = exec i s) ∧
  (∀ (s : State) (inp : Inputs) (r : Response), s.accepts inp →
    step { s with rsp := r } = step s)

/-- R25: the four letters are treated alike. Renaming the letters of the instruction and of the cells
renames the letters of the result: the same stack, status, data and widths, each cell's new value under
its letter's new name, and the renamed operands' codes in the response to an error. -/
def Obligations.LettersAreTreatedAlike : Prop :=
  ∀ (f : Letter → Letter), Function.Injective f →
    ∀ (i : Instr) (s s' t : State),
      (∀ L, cellOf (f L) s'.cells = cellOf L s.cells) → s'.stack = s.stack → s'.config = s.config →
      exec i s = .next t →
      ∃ t', exec (i.rename f) s' = .next t' ∧ (∀ L, cellOf (f L) t'.cells = cellOf L t.cells) ∧
        t'.stack = t.stack ∧ t'.rsp.status = t.rsp.status ∧ t'.rsp.data = t.rsp.data ∧
        t'.rsp.width0 = t.rsp.width0 ∧ t'.rsp.width1 = t.rsp.width1 ∧
        (∀ r : RegisterRef, t.rsp.status = .sizeMismatch ∨ t.rsp.status = .invalidOperandWidth →
          t.rsp.name0 = r.code → t'.rsp.name0 = (r.rename f).code) ∧
        (∀ r : RegisterRef, t.rsp.status = .sizeMismatch →
          t.rsp.name1 = r.code → t'.rsp.name1 = (r.rename f).code)

/-! ## Edges (30_encoding.md R65, R66, 70_reset_and_hazards.md) -/

/-- A step whose edge accepts an EXEC of a word that decodes is `exec` of that instruction, in the state
without those inputs (30_encoding.md section 1). -/
def Obligations.StepRunsTheDecodedInstruction : Prop :=
  ∀ (s : State) (inp : Inputs) (rest : List Inputs) (i : Instr),
    s.inputs = inp :: rest → inp.rst = false → inp.reqValid = true → inp.reqKind = 0 →
    decode inp.reqInstr = .ok i → i.wellFormed = true →
    step s = exec i { s with inputs := rest }

/-- A table word placed by `withFetchWord` is run by the very next step, in the state it was placed in
(how a program comes to run is the model's choice, log 6; the cut to 16 bits, log 12). -/
def Obligations.PlacedWordRunsNext : Prop :=
  ∀ (s : State) (nbits w : Nat),
    (∀ i, decodeTableWord nbits w = some i → step (s.withFetchWord nbits w) = exec i s) ∧
    (decodeTableWord nbits w = none → step (s.withFetchWord nbits w) =
      .next { s with rsp := ⟨true, .illegalEncoding, 0, 0, 0, 0, 0⟩ })

/-- The source's `read`, `write` and `execute` as requests: the first table of 30_encoding.md. The
integer of a `write` is reduced mod 2^16 (R93); for a negative integer that is PRESUMED and unsafe
(log 13). -/
def Obligations.SourceOperationsAreRealised : Prop :=
  ∀ (s : State) (rest : List Inputs),
    (∀ r, step { s with inputs := inputsOf (.read r) :: rest } =
      .next { s with inputs := rest, rsp := ⟨true, .ok, viewRead r s.cells, 0, 0, 0, 0⟩ }) ∧
    (∀ r n, step { s with inputs := inputsOf (.write r n) :: rest } =
      .next { s with
        inputs := rest
        cells := viewWrite r (BitVec.ofInt 16 n) s.cells
        rsp := ⟨true, .ok, 0, 0, 0, 0, 0⟩ }) ∧
    (∀ i, step { s with inputs := inputsOf (.execute i) :: rest } = exec i { s with inputs := rest })

/-- R180 and R181: an edge with `rst = 1` gives the reset values, whatever request stands on the other
inputs, and no response. -/
def Obligations.ResetEdgeGivesTheResetValues : Prop :=
  ∀ (s : State) (inp : Inputs) (rest : List Inputs), s.inputs = inp :: rest → inp.rst = true →
    step s = .next
      { cells := ⟨0, 0, 0, 0⟩, stack := [], rsp := ⟨false, .ok, 0, 0, 0, 0, 0⟩
        config := s.config, inputs := rest }

/-- An edge without reset and without a request clears `rsp_valid` and holds everything else; so does
an edge past the listed inputs, which is the model's choice (log 5) (70_reset_and_hazards.md section 4,
30_encoding.md section 1). -/
def Obligations.IdleEdgeHoldsTheState : Prop :=
  ∀ s : State,
    (∀ inp rest, s.inputs = inp :: rest → inp.rst = false → inp.reqValid = false →
      step s = .next { s with inputs := rest, rsp := { s.rsp with valid := false } }) ∧
    (s.inputs = [] → step s = .next { s with rsp := { s.rsp with valid := false } })

/-- There is one response per accepted request and none otherwise; each step takes one edge's inputs, in
order, and leaves the parameter as it is (70_reset_and_hazards.md sections 3 and 4). -/
def Obligations.OneResponsePerAcceptedRequest : Prop :=
  ∀ s t : State, step s = .next t →
    (t.rsp.valid = true ↔ ∃ inp, s.accepts inp) ∧ t.inputs = s.inputs.tail ∧ t.config = s.config

/-- R32: the values after reset. (That the parameter is unbounded and no inputs are listed is the
model's choice, logs 2 and 6, and no part of this statement.) -/
def Obligations.ResetValues : Prop :=
  (∀ L, cellOf L State.reset.cells = 0) ∧ (∀ r, viewPort r State.reset = 0) ∧
  State.reset.stack = [] ∧ stackDepthPort State.reset = 0 ∧
  State.reset.rsp.valid = false ∧ State.reset.rsp.status.code = 0 ∧ State.reset.rsp.data = 0 ∧
  State.reset.rsp.name0 = 0 ∧ State.reset.rsp.name1 = 0 ∧
  State.reset.rsp.width0 = 0 ∧ State.reset.rsp.width1 = 0

/-! ## Invariants -/

/-- R34: from every state that meets the invariant, a step leads to one that meets it: cells and entries
are in range, and a finite stack holds at most `STACK_DEPTH` entries. -/
def Obligations.StepKeepsTheDepthBound : Prop :=
  ∀ s t : State, s.Inv → step s = .next t →
    t.Inv ∧ (∀ L, (cellOf L t.cells).toNat ≤ 0xFFFF) ∧ (∀ v ∈ t.stack, v.toNat ≤ 0xFFFF) ∧
      (∀ n, t.config.stackDepth = .bounded n → t.stack.length ≤ n)

/-- The reset state meets the invariant, and so does what a reset edge makes of any state whose
parameter is legal (10_state.md section 5). -/
def Obligations.ResetMeetsTheDepthBound : Prop :=
  State.reset.Inv ∧ ∀ s : State, s.config.legal = true → (resetEdge s).Inv

/-- From every state whose response agrees with its status, a step leads to one whose response does: a
payload port its status does not use is 0, names are codes of RegisterRefs, and the widths of a
SizeMismatch are its operands' and differ (30_encoding.md section 1, 60_exceptions.md section 1). -/
def Obligations.StepKeepsTheResponseWellFormed : Prop :=
  ∀ s t : State, responseWellFormed s.rsp = true → step s = .next t → responseWellFormed t.rsp = true

/-- The reset response agrees with its status (10_state.md section 5). -/
def Obligations.ResetResponseIsWellFormed : Prop :=
  responseWellFormed State.reset.rsp = true
end

