-- ==== Sys2Proof/Laws/State.lean ====
section
/-! SUPPORT. The small lemmas of State's named updates: one per field per update, each true by rfl. -/

namespace Sys2Proof.Machine

variable (s : State) (c : Cells) (st : List Word) (r : Response) (is : List Inputs)

@[simp] theorem withCells_cells : (s.withCells c).cells = c := rfl
@[simp] theorem withCells_stack : (s.withCells c).stack = s.stack := rfl
@[simp] theorem withCells_rsp : (s.withCells c).rsp = s.rsp := rfl
@[simp] theorem withCells_config : (s.withCells c).config = s.config := rfl
@[simp] theorem withCells_inputs : (s.withCells c).inputs = s.inputs := rfl

@[simp] theorem withStack_cells : (s.withStack st).cells = s.cells := rfl
@[simp] theorem withStack_stack : (s.withStack st).stack = st := rfl
@[simp] theorem withStack_rsp : (s.withStack st).rsp = s.rsp := rfl
@[simp] theorem withStack_config : (s.withStack st).config = s.config := rfl
@[simp] theorem withStack_inputs : (s.withStack st).inputs = s.inputs := rfl

@[simp] theorem withRsp_cells : (s.withRsp r).cells = s.cells := rfl
@[simp] theorem withRsp_stack : (s.withRsp r).stack = s.stack := rfl
@[simp] theorem withRsp_rsp : (s.withRsp r).rsp = r := rfl
@[simp] theorem withRsp_config : (s.withRsp r).config = s.config := rfl
@[simp] theorem withRsp_inputs : (s.withRsp r).inputs = s.inputs := rfl

@[simp] theorem withInputs_cells : (s.withInputs is).cells = s.cells := rfl
@[simp] theorem withInputs_stack : (s.withInputs is).stack = s.stack := rfl
@[simp] theorem withInputs_rsp : (s.withInputs is).rsp = s.rsp := rfl
@[simp] theorem withInputs_config : (s.withInputs is).config = s.config := rfl
@[simp] theorem withInputs_inputs : (s.withInputs is).inputs = is := rfl

end Sys2Proof.Machine
end

