-- ==== Sys2Proof/Laws/Operands.lean ====
section
/-! SUPPORT. The small lemmas of the cells and of the two halves of a cell: what the register accessors
of Machine/Operands.lean are made of. What they do through views is stated in the obligations. -/

namespace Sys2Proof.Machine

/-! ## Cells by letter -/

theorem cellOf_setCell (L M : Letter) (v : Word) (c : Cells) :
    cellOf M (setCell L v c) = if M = L then v else cellOf M c := by
  cases L <;> cases M <;> rfl

@[simp] theorem cellOf_setCell_self (L : Letter) (v : Word) (c : Cells) :
    cellOf L (setCell L v c) = v := by
  simp [cellOf_setCell]

theorem cellOf_setCell_of_ne {L M : Letter} (h : M ≠ L) (v : Word) (c : Cells) :
    cellOf M (setCell L v c) = cellOf M c := by
  simp [cellOf_setCell, h]

/-- Cells with the same value in every letter are the same cells. -/
theorem cells_ext {c e : Cells} (h : ∀ L, cellOf L c = cellOf L e) : c = e := by
  cases c; cases e
  exact (Cells.mk.injEq ..).mpr ⟨h .A, h .B, h .C, h .D⟩

@[simp] theorem setCell_setCell (L : Letter) (u v : Word) (c : Cells) :
    setCell L v (setCell L u c) = setCell L v c := by
  cases L <;> rfl

theorem setCell_comm {L M : Letter} (h : L ≠ M) (u v : Word) (c : Cells) :
    setCell L v (setCell M u c) = setCell M u (setCell L v c) :=
  cells_ext fun K => by
    by_cases hL : K = L
    · subst hL; simp [cellOf_setCell, h]
    · simp [cellOf_setCell, hL]

@[simp] theorem setCell_cellOf (L : Letter) (c : Cells) : setCell L (cellOf L c) c = c := by
  cases L <;> rfl

/-! ## The halves of a cell -/

theorem lowByteOf_toNat (v : Word) : (lowByteOf v).toNat = v.toNat % 256 := by
  simp [lowByteOf, BitVec.extractLsb'_toNat]

theorem highByteOf_toNat (v : Word) : (highByteOf v).toNat = v.toNat / 256 := by
  have := v.isLt
  simp only [highByteOf, BitVec.extractLsb'_toNat, Nat.shiftRight_eq_div_pow]
  omega

theorem joinBytes_toNat (h l : Byte) : (joinBytes h l).toNat = h.toNat * 256 + l.toNat := by
  have hl := l.isLt
  rw [joinBytes, BitVec.toNat_append, ← Nat.shiftLeft_add_eq_or_of_lt hl, Nat.shiftLeft_eq]

@[simp] theorem lowByteOf_joinBytes (h l : Byte) : lowByteOf (joinBytes h l) = l := by
  apply BitVec.eq_of_toNat_eq
  have := l.isLt
  rw [lowByteOf_toNat, joinBytes_toNat]
  omega

@[simp] theorem highByteOf_joinBytes (h l : Byte) : highByteOf (joinBytes h l) = h := by
  apply BitVec.eq_of_toNat_eq
  have := l.isLt
  rw [highByteOf_toNat, joinBytes_toNat]
  omega

@[simp] theorem joinBytes_high_low (v : Word) : joinBytes (highByteOf v) (lowByteOf v) = v := by
  apply BitVec.eq_of_toNat_eq
  rw [joinBytes_toNat, highByteOf_toNat, lowByteOf_toNat]
  omega

/-- A byte is the low byte of the 16-bit value it is zero-extended to. -/
@[simp] theorem lowByteOf_setWidth (b : Byte) : lowByteOf (b.setWidth 16) = b := by
  apply BitVec.eq_of_toNat_eq
  have := b.isLt
  rw [lowByteOf_toNat, BitVec.toNat_setWidth]
  omega

end Sys2Proof.Machine
end

