-- ==== Sys2Proof/Laws/Ops.lean ====
section
/-! SUPPORT. What each shared operation and each meaning can do, said once: if it answers next t, then
one of these cases holds. Later proofs cite these and unfold nothing. -/

namespace Sys2Proof.Machine

variable {s t : State}

/-! ## Ends of a request -/

@[simp] theorem complete_eq_next {data : Word} :
    complete data s = .next t ↔ s.withRsp (okResponse data) = t := by
  simp [complete]

@[simp] theorem raise_eq_next {e : ExecError} :
    raise e s = .next t ↔ s.withRsp (errorResponse e) = t := by
  simp [raise]

/-! ## The stack -/

theorem stackFull_iff : stackFull s = true ↔ s.config.stackDepth = .bounded s.stack.length := by
  unfold stackFull
  cases s.config.stackDepth with
  | unbounded => simp
  | bounded n =>
    simp only [beq_iff_eq, StackDepth.bounded.injEq]
    exact ⟨Eq.symm, Eq.symm⟩

@[simp] theorem pushStack_stack (v : Word) : (pushStack v s).stack = v :: s.stack := rfl
@[simp] theorem pushStack_cells (v : Word) : (pushStack v s).cells = s.cells := rfl
@[simp] theorem pushStack_config (v : Word) : (pushStack v s).config = s.config := rfl
@[simp] theorem pushStack_inputs (v : Word) : (pushStack v s).inputs = s.inputs := rfl

@[simp] theorem writeView_cells (r : RegisterRef) (v : Word) :
    (writeView r v s).cells = viewWrite r v s.cells := rfl
@[simp] theorem writeView_stack (r : RegisterRef) (v : Word) : (writeView r v s).stack = s.stack := rfl
@[simp] theorem writeView_config (r : RegisterRef) (v : Word) : (writeView r v s).config = s.config := rfl
@[simp] theorem writeView_inputs (r : RegisterRef) (v : Word) : (writeView r v s).inputs = s.inputs := rfl

/-! ## Edges without a request -/

@[simp] theorem resetEdge_cells : (resetEdge s).cells = .reset := rfl
@[simp] theorem resetEdge_stack : (resetEdge s).stack = [] := rfl
@[simp] theorem resetEdge_rsp : (resetEdge s).rsp = .reset := rfl
@[simp] theorem resetEdge_config : (resetEdge s).config = s.config := rfl
@[simp] theorem resetEdge_inputs : (resetEdge s).inputs = s.inputs := rfl

@[simp] theorem idleEdge_cells : (idleEdge s).cells = s.cells := rfl
@[simp] theorem idleEdge_stack : (idleEdge s).stack = s.stack := rfl
@[simp] theorem idleEdge_config : (idleEdge s).config = s.config := rfl
@[simp] theorem idleEdge_inputs : (idleEdge s).inputs = s.inputs := rfl

/-! ## The meanings -/

theorem execMov_cases {src dst : RegisterRef} (h : execMov src dst s = .next t) :
    (compatible src dst = true ∧ t = (writeView dst (readView src s) s).withRsp (okResponse 0)) ∨
    (compatible src dst = false ∧ t = s.withRsp (errorResponse (sizeMismatchOf src dst))) := by
  unfold execMov at h
  split at h <;> simp_all

theorem execXchg_cases {src dst : RegisterRef} (h : execXchg src dst s = .next t) :
    (compatible src dst = true ∧
      t = (s.withCells (viewSwap src dst s.cells)).withRsp (okResponse 0)) ∨
    (compatible src dst = false ∧ t = s.withRsp (errorResponse (sizeMismatchOf src dst))) := by
  unfold execXchg at h
  split at h <;> simp_all

theorem execPush_cases {src : RegisterRef} (h : execPush src s = .next t) :
    (stackFull s = true ∧ t = s.withRsp (errorResponse .stackOverflow)) ∨
    (stackFull s = false ∧ src.view ≠ .word ∧
      t = s.withRsp (errorResponse (.invalidOperandWidth src))) ∨
    (stackFull s = false ∧ src.view = .word ∧
      t = (pushStack (readView src s) s).withRsp (okResponse 0)) := by
  unfold execPush at h
  split at h
  · simp_all
  · split at h <;> simp_all

theorem execPop_cases {dst : RegisterRef} (h : execPop dst s = .next t) :
    (s.stack = [] ∧ t = s.withRsp (errorResponse .stackUnderflow)) ∨
    (∃ v rest, s.stack = v :: rest ∧ dst.view ≠ .word ∧
      t = s.withRsp (errorResponse (.invalidOperandWidth dst))) ∨
    (∃ v rest, s.stack = v :: rest ∧ dst.view = .word ∧
      t = (writeView dst v (s.withStack rest)).withRsp (okResponse 0)) := by
  unfold execPop at h
  split at h
  · simp_all
  · split at h <;> simp_all

end Sys2Proof.Machine
end

