-- ==== Sys2Proof/Laws/PerInstr.lean ====
section
/-! SUPPORT. Statements made per instruction. EncodesRow: an instruction's word is an encoding of the
instruction's own row of the opcode map (30_encoding.md R79), and of no other row. -/

namespace Sys2Proof.Laws.EncodesRow

def Statement (i : Instr) : Prop :=
  i.wellFormed = true → ∀ row ∈ opcodeTable, row.encodes (encode i) = true ↔ row = i.row

theorem mov (src dst : RegisterRef) : Statement (.mov src dst) := by
  obtain ⟨L, v⟩ := src
  obtain ⟨M, u⟩ := dst
  intro _
  cases L <;> cases v <;> cases M <;> cases u <;> decide

theorem xchg (src dst : RegisterRef) : Statement (.xchg src dst) := by
  obtain ⟨L, v⟩ := src
  obtain ⟨M, u⟩ := dst
  intro _
  cases L <;> cases v <;> cases M <;> cases u <;> decide

theorem push (src : RegisterRef) : Statement (.push src) := by
  obtain ⟨L, v⟩ := src
  intro _
  cases L <;> cases v <;> decide

theorem pop (dst : RegisterRef) : Statement (.pop dst) := by
  obtain ⟨L, v⟩ := dst
  intro _
  cases L <;> cases v <;> decide

end Sys2Proof.Laws.EncodesRow
end

