-- ==== Sys2Proof/Laws/Step.lean ====
section
/-! SUPPORT. What one step can do, said once: the edge it takes, and the request an accepted edge
carries. -/

namespace Sys2Proof.Machine

variable {s t : State}

/-- What an accepted request can be (30_encoding.md R66). -/
theorem accept_cases {inp : Inputs} (h : accept inp s = .next t) :
    (inp.reqKind = 0 ∧ ∃ i, decode inp.reqInstr = .ok i ∧ exec i s = .next t) ∨
    (inp.reqKind = 0 ∧ (∃ e, decode inp.reqInstr = .error e) ∧
      t = s.withRsp (errorResponse .illegalEncoding)) ∨
    (inp.reqKind = 1 ∧ ∃ r, refOf inp.reqRef = some r ∧ t = s.withRsp (okResponse (readView r s))) ∨
    (inp.reqKind = 2 ∧ ∃ r, refOf inp.reqRef = some r ∧
      t = (writeView r inp.reqWdata s).withRsp (okResponse 0)) ∨
    ((inp.reqKind = 1 ∨ inp.reqKind = 2) ∧ refOf inp.reqRef = none ∧
      t = s.withRsp (errorResponse .illegalEncoding)) ∨
    (inp.reqKind ≠ 0 ∧ inp.reqKind ≠ 1 ∧ inp.reqKind ≠ 2 ∧
      t = s.withRsp (errorResponse .illegalEncoding)) := by
  unfold accept at h
  split at h
  · unfold execRequest at h
    split at h <;> simp_all
  · split at h
    · unfold readRequest at h
      split at h <;> simp_all
    · split at h
      · unfold writeRequest at h
        split at h <;> simp_all
      · simp_all

/-- What an edge can be (70_reset_and_hazards.md R190). -/
theorem step_cases (h : step s = .next t) :
    (s.inputs = [] ∧ t = idleEdge s) ∨
    (∃ inp rest, s.inputs = inp :: rest ∧
      ((inp.rst = true ∧ t = resetEdge (s.withInputs rest)) ∨
       (inp.rst = false ∧ inp.reqValid = false ∧ t = idleEdge (s.withInputs rest)) ∨
       (inp.rst = false ∧ inp.reqValid = true ∧ accept inp (s.withInputs rest) = .next t))) := by
  unfold step nextEdge at h
  split at h
  · simp_all
  · unfold edge at h
    split at h
    · simp_all
    · split at h <;> simp_all

/-! ## Runs -/

/-- A run that starts with a step to t goes on from t. -/
theorem run_succ_of_step {k : Nat} (h : step s = .next t) :
    Host.Core.run Sys2Proof.core (k + 1) s = Host.Core.run Sys2Proof.core k t := by
  have h' : Sys2Proof.core.step s = .next t := h
  simp only [Host.Core.run, h']

end Sys2Proof.Machine
end

