-- ==== Sys2Proof/Laws/Safety.lean ====
section
/-! SUPPORT. The small lemmas of Safety.lean's predicates. -/

namespace Sys2Proof.Machine

variable {s : State}

theorem withinDepth_iff :
    withinDepth s = true ↔ ∀ n, s.config.stackDepth = .bounded n → s.stack.length ≤ n := by
  unfold withinDepth
  cases s.config.stackDepth with
  | unbounded => simp
  | bounded n => simp

/-- The next edge accepts a request iff its inputs stand first and carry one without reset. -/
theorem accepts_iff {inp : Inputs} :
    s.accepts inp ↔ ∃ rest, s.inputs = inp :: rest ∧ inp.rst = false ∧ inp.reqValid = true := by
  unfold State.accepts
  cases s.inputs with
  | nil => simp
  | cons a rest => simp

/-- One edge accepts at most one request. -/
theorem accepts_unique {inp inp' : Inputs} (h : s.accepts inp) (h' : s.accepts inp') : inp = inp' :=
  Option.some.inj (h.1.symm.trans h'.1)

/-- One edge presents at most one instruction. -/
theorem presents_unique {i j : Instr} (hi : s.presents i) (hj : s.presents j) : i = j := by
  obtain ⟨inp, ha, _, hd⟩ := hi
  obtain ⟨inp', ha', _, hd'⟩ := hj
  obtain rfl := accepts_unique ha ha'
  exact Except.ok.inj (hd.symm.trans hd')

/-- An edge with reset accepts nothing. -/
theorem not_accepts_of_presentsReset {inp : Inputs} (h : s.presentsReset) : ¬ s.accepts inp := by
  rintro ⟨h1, h2, _⟩
  obtain ⟨inp', h3, h4⟩ := h
  obtain rfl := Option.some.inj (h1.symm.trans h3)
  simp [h2] at h4

end Sys2Proof.Machine
end

