-- ==== Sys2Proof/Tests/Slice0.lean ====
section
/-! SUPPORT. Tests. Every expected value is the spec's: the vectors of spec/95_test_vectors.md (their ids
stand in the names or comments) and the tables of spec/30_encoding.md. After them, one witness a
statement: a concrete state and operands that meet its hypotheses. -/

namespace Sys2Proof.Tests

open Sys2Proof.Machine

/-! ## Helpers -/

abbrev AX : RegisterRef := ⟨.A, .word⟩
abbrev AL : RegisterRef := ⟨.A, .lowByte⟩
abbrev AH : RegisterRef := ⟨.A, .highByte⟩
abbrev BX : RegisterRef := ⟨.B, .word⟩
abbrev BL : RegisterRef := ⟨.B, .lowByte⟩
abbrev BH : RegisterRef := ⟨.B, .highByte⟩
abbrev CX : RegisterRef := ⟨.C, .word⟩
abbrev CL : RegisterRef := ⟨.C, .lowByte⟩
abbrev CH : RegisterRef := ⟨.C, .highByte⟩
abbrev DX : RegisterRef := ⟨.D, .word⟩
abbrev DH : RegisterRef := ⟨.D, .highByte⟩

/-- A state as spec/95_test_vectors.md writes one, with an unbounded stack unless said otherwise. -/
def st (a b c d : Word) (stack : List Word := []) (depth : StackDepth := .unbounded)
    (inputs : List Inputs := []) : State :=
  { State.reset with cells := ⟨a, b, c, d⟩, stack := stack, config := ⟨depth⟩, inputs := inputs }

/-- The state one edge later, with those inputs on the ports. -/
def after (inp : Inputs) (s : State) : Option State :=
  match step (s.withInputs [inp]) with
  | .next t => some t
  | .fault _ => none
  | .refused _ => none

/-- What a vector says of a response: its status and the payload ports. -/
def rspOf (s : Option State) : Option Response := s.map State.rsp
def cellsOf (s : Option State) : Option Cells := s.map State.cells
def stackOf (s : Option State) : Option (List Word) := s.map State.stack

def rspError (e : Status) (n0 n1 : RefCode := 0) (w0 w1 : BitVec 5 := 0) : Response :=
  ⟨true, e, 0, n0, n1, w0, w1⟩

/-! ## Well-formedness: each check refuses an ill-formed term -/

theorem test_word_refused_by_pattern : rowMov.encodes 0x5000 = false := by decide
theorem test_word_refused_by_reserved_field : rowMov.encodes 0x1100 = false := by decide
theorem test_word_refused_by_src_view : rowMov.encodes 0x1030 = false := by decide
theorem test_word_refused_by_dst_view : rowMov.encodes 0x1003 = false := by decide
theorem test_word_refused_by_unused_dst : rowPush.encodes 0x3001 = false := by decide
theorem test_word_refused_by_unused_src : rowPop.encodes 0x4010 = false := by decide
theorem test_word_refused_by_every_row : legalWord 0x0000 = false := by decide
theorem test_ref_refused : legalRef 0x7 = false ∧ legalRef 0xF = false := by decide
theorem test_request_refused :
    legalRequest 0 0x1003 0 = false ∧ legalRequest 1 0x1000 0x3 = false ∧
    legalRequest 2 0x1000 0xB = false ∧ legalRequest 3 0x1000 0 = false := by decide
/-- No instruction is ill-formed as syntax (00_scope.md R15). -/
theorem test_every_instr_wellFormed (i : Instr) : i.wellFormed = true := by cases i <;> rfl

/-! ## Decoding: words written out from the encodings of R79 and the examples of R82 and 95 §2.6 -/

theorem test_decode_mov : decode 0b0001_0000_0001_0110 = .ok (.mov AL BH) := by decide
theorem test_decode_mov_dh_cl : decode 0x10E9 = .ok (.mov DH CL) := by decide
theorem test_decode_xchg : decode 0b0010_0000_0101_1010 = .ok (.xchg BL CH) := by decide
theorem test_decode_push : decode 0b0011_0000_1100_0000 = .ok (.push DX) := by decide
theorem test_decode_push_byte : decode 0x30E0 = .ok (.push DH) := by decide
theorem test_decode_pop : decode 0b0100_0000_0000_1100 = .ok (.pop DX) := by decide
theorem test_decode_pop_byte : decode 0x4001 = .ok (.pop AL) := by decide
theorem test_decode_rejects_by_name :
    decode 0x0000 = .error .reservedOpcode ∧ decode 0xF000 = .error .reservedOpcode ∧
    decode 0xFFFF = .error .reservedField ∧ decode 0x1100 = .error .reservedField ∧
    decode 0x1003 = .error .reservedView ∧ decode 0x1030 = .error .reservedView ∧
    decode 0x2077 = .error .reservedView ∧ decode 0x3030 = .error .reservedView ∧
    decode 0x400F = .error .reservedView ∧ decode 0x3001 = .error .unusedField ∧
    decode 0x4010 = .error .unusedField := by decide
theorem test_encode :
    encode (.mov AH AL) = 0x1021 ∧ encode (.xchg AH BL) = 0x2025 ∧
    encode (.push BX) = 0x3040 ∧ encode (.pop CX) = 0x4008 := by decide
theorem test_decodeTableWord :
    decodeTableWord 16 0x1016 = some (.mov AL BH) ∧ decodeTableWord 16 0x1100 = none := by decide
theorem test_assemble :
    assemble ["MOV", "AL", "BH"] = some (.mov AL BH) ∧ assemble ["POP", "DX"] = some (.pop DX) ∧
    assemble ["MOV", "AL"] = none := by decide
theorem test_line : lineOf (.execute (.mov AL BH)) = "MOV AL, BH" := by decide

/-! ## Instructions (95_test_vectors.md) -/

/-- M2: A=0x1234, B=0x5678, MOV AL, BH gives B=0x3478. -/
theorem test_mov_across_halves :
    cellsOf (after (execInputs 0x1016) (st 0x1234 0x5678 0 0)) = some ⟨0x1234, 0x3478, 0, 0⟩ := by
  decide
/-- M7: MOV BL, AX gives SizeMismatch(8, 16, BL=0x5, AX=0x0). -/
theorem test_mov_size_mismatch :
    rspOf (after (execInputs 0x1050) (st 0x1234 0x5678 0 0)) =
      some (rspError .sizeMismatch 0x5 0x0 8 16) := by decide
/-- X2: B=0x5678, C=0x9ABC, XCHG BL, CH gives B=0x569A, C=0x78BC. -/
theorem test_xchg_across_halves :
    cellsOf (after (execInputs 0x205A) (st 0 0x5678 0x9ABC 0)) = some ⟨0, 0x569A, 0x78BC, 0⟩ := by
  decide
/-- X4: XCHG AX, BL gives SizeMismatch(16, 8, AX=0x0, BL=0x5). -/
theorem test_xchg_size_mismatch :
    rspOf (after (execInputs 0x2005) (st 0x1234 0x5678 0 0)) =
      some (rspError .sizeMismatch 0x0 0x5 16 8) := by decide
/-- P2: A=0x0001, S=[0x0002], PUSH AX gives S=[0x0001, 0x0002] (first of the two). -/
theorem test_push_on_top :
    stackOf (after (execInputs 0x3000) (st 1 0 0 0 [2] (.bounded 3))) = some [1, 2] := by decide
/-- P5: depth 2, S=[0x1111, 0x2222], PUSH AL gives StackOverflow, checked before the width. -/
theorem test_push_overflow_before_width :
    rspOf (after (execInputs 0x3010) (st 0x3333 0 0 0 [0x1111, 0x2222] (.bounded 2))) =
      some (rspError .stackOverflow) := by decide
/-- O3: S=[0xCAFE, 0x0001], POP BX gives B=0xCAFE, S=[0x0001]. -/
theorem test_pop_top :
    (after (execInputs 0x4004) (st 0 0 0 0 [0xCAFE, 1])).map (fun s => (s.cells.b, s.stack)) =
      some (0xCAFE, [1]) := by decide
/-- O2: S=[0x1234], POP BH gives InvalidOperandWidth(BH=0x6), the value not consumed. -/
theorem test_pop_byte_not_consumed :
    (after (execInputs 0x4006) (st 0 0 0 0 [0x1234])).map (fun s => (s.rsp, s.stack)) =
      some (rspError .invalidOperandWidth 0x6, [0x1234]) := by decide

/-! ## Host requests and edges (95_test_vectors.md) -/

/-- V5: A=0xABCD, READ AH gives 0x00AB. -/
theorem test_read_zero_extends :
    (after (readInputs AH) (st 0xABCD 0 0 0)).map (·.rsp.data) = some 0x00AB := by decide
/-- V10: READ with `req_ref = 0x3` gives IllegalEncoding. -/
theorem test_read_illegal_ref :
    rspOf (after { readInputs AX with reqRef := 0x3 } (st 0x1234 0 0 0)) =
      some (rspError .illegalEncoding) := by decide
/-- S2, second request: A=0x12AB, WRITE AH, 0x3CD gives A=0xCDAB. -/
theorem test_write_high_replaces :
    cellsOf (after (writeInputs AH 0x3CD) (st 0x12AB 0 0 0)) = some ⟨0xCDAB, 0, 0, 0⟩ := by decide
/-- V8: C=0x1234, an integer write of -2 to CL gives C=0x12FE. -/
theorem test_write_negative_integer :
    cellsOf (after (inputsOf (.write CL (-2))) (st 0 0 0x1234 0)) = some ⟨0, 0, 0x12FE, 0⟩ := by
  decide
/-- V12: `req_kind = 11` gives IllegalEncoding. -/
theorem test_reserved_kind :
    rspOf (after { idleInputs with reqValid := true, reqKind := 3 } (st 1 2 3 4)) =
      some (rspError .illegalEncoding) := by decide
/-- V13: the peek port at 0, 1 and 2 of S=[0x0001, 0x0002]. -/
theorem test_peek :
    [0, 1, 2].map (fun i => (peekValid i (st 0 0 0 0 [1, 2]), peekData i (st 0 0 0 0 [1, 2]))) =
      [(true, 1), (true, 2), (false, 0)] := by decide
/-- V13: the view outputs of A=0x1234 and the depth. -/
theorem test_outputs :
    ((outputs idleInputs (st 0x1234 0 0 0 [1, 2])).viewWord.head?,
      (outputs idleInputs (st 0x1234 0 0 0 [1, 2])).viewLo.head?,
      (outputs idleInputs (st 0x1234 0 0 0 [1, 2])).viewHi.head?,
      (outputs idleInputs (st 0x1234 0 0 0 [1, 2])).stackDepth) =
      (some (.A, 0x1234), some (.A, 0x34), some (.A, 0x12), 2) := by decide
/-- Z2: reset and a WRITE in one cycle give the reset state and no response. -/
theorem test_reset_beats_request :
    (after { writeInputs AX 0x5555 with rst := true } (st 0x1234 0xFFFF 1 0x8000 [1, 2, 3])).map
      (fun s => (s.cells, s.stack, s.rsp.valid)) = some (⟨0, 0, 0, 0⟩, [], false) := by decide
/-- R65: an edge without a request changes no state. -/
theorem test_idle :
    (after idleInputs (st 1 2 3 4 [5])).map (fun s => (s.cells, s.stack, s.rsp.valid)) =
      some (⟨1, 2, 3, 4⟩, [5], false) := by decide
/-- The first instruction after reset, placed as the host places it. -/
theorem test_placed_word_runs :
    step (State.reset.withFetchWord 16 0x3000) =
      .next { State.reset with stack := [0], rsp := ⟨true, .ok, 0, 0, 0, 0, 0⟩ } := by rfl
/-- `DEPTH_W` of 1, 2, 3 and 16 (00_scope.md R9: the least n with 2^n > STACK_DEPTH). -/
theorem test_depthWidth :
    [1, 2, 3, 16].map (fun n => depthWidth (.bounded n)) = [some 1, some 2, some 2, some 5] := by
  decide

/-! ## Witnesses: the hypotheses of each statement can be met

Named after the statement. Statements without hypotheses have none. -/

theorem witness_DecodeOfEncode : (Instr.xchg DH CL).wellFormed = true := by decide
theorem witness_EncodeOfDecode : decode 0x30E0 = .ok (.push DH) := by decide
theorem witness_WordDecodesIffItMatchesItsRow :
    decode 0x10EE = .ok (.mov DH DH) ∧ rowMov ∈ opcodeTable ∧ legalWord 0x10EE = true ∧
    legalWord 0x2000 = true ∧ legalWord 0x30E0 = true ∧ legalWord 0x400E = true := by decide

/-- The inputs of a request with that kind, on every field. -/
def request (kind : BitVec 2) (instr : Word := 0) (ref : RefCode := 0) : Inputs :=
  { idleInputs with reqValid := true, reqKind := kind, reqInstr := instr, reqRef := ref }

theorem undecodable {w : Word} {e : DecodeReject} (h : decode w = .error e) :
    ¬ ∃ i, decode w = .ok i := by
  rintro ⟨i, hi⟩
  cases h.symm.trans hi

theorem witness_IllegalRequestRaisesIllegalEncoding :
    ((request 0 0x0000).rst = false ∧ (request 0 0x0000).reqValid = true ∧
      (request 0 0x0000).reqKind = 0 ∧ (¬ ∃ i, decode (request 0 0x0000).reqInstr = .ok i)) ∧
    ((request 1 0 0x3).reqKind = 1 ∧ (request 1 0 0x3).reqRef.extractLsb' 0 2 = 3) ∧
    ((request 2 0 0xF).reqKind = 2 ∧ (request 2 0 0xF).reqRef.extractLsb' 0 2 = 3) ∧
    (request 3).reqKind = 3 :=
  ⟨⟨rfl, rfl, rfl, undecodable (e := .reservedOpcode) (by decide)⟩, by decide, by decide, by decide⟩

theorem witness_AssembleAndDisassembleAgree : assemble ["XCHG", "DH", "AL"] = some (.xchg DH AL) := by
  decide
theorem witness_ViewsOfOneLetterAlias : AH.letter ≠ Letter.D := by decide

/-- Each clause at its first and last letter. -/
theorem witness_ReadReturnsTheView :
    (request 1 0 0x0).rst = false ∧ (request 1 0 0x0).reqValid = true ∧
    (request 1 0 0x0).reqKind = 1 ∧
    (request 1 0 0x0).reqRef = Letter.A.code ++ 0#2 ∧ (request 1 0 0xC).reqRef = Letter.D.code ++ 0#2 ∧
    (request 1 0 0x1).reqRef = Letter.A.code ++ 1#2 ∧ (request 1 0 0xD).reqRef = Letter.D.code ++ 1#2 ∧
    (request 1 0 0x2).reqRef = Letter.A.code ++ 2#2 ∧ (request 1 0 0xE).reqRef = Letter.D.code ++ 2#2 ∧
    (request 1 0 0x3).reqRef.extractLsb' 0 2 = 3 ∧ (request 1 0 0xF).reqRef.extractLsb' 0 2 = 3 := by
  decide
/-- One legal and one illegal READ before the last. -/
theorem witness_ReadsHaveNoEffect :
    (∀ inp ∈ [readInputs AX, request 1 0 0x3], inp.rst = false ∧ inp.reqValid = true ∧ inp.reqKind = 1) ∧
    (st 1 2 3 4 [5] .unbounded [readInputs AX, request 1 0 0x3, readInputs BH]).inputs =
      [readInputs AX, request 1 0 0x3] ++ readInputs BH :: [] := by decide
/-- Each clause at its first and last letter. -/
theorem witness_WriteStoresIntoTheView :
    (request 2 0 0x0).rst = false ∧ (request 2 0 0x0).reqValid = true ∧
    (request 2 0 0x0).reqKind = 2 ∧
    (request 2 0 0x0).reqRef = Letter.A.code ++ 0#2 ∧ (request 2 0 0xC).reqRef = Letter.D.code ++ 0#2 ∧
    (request 2 0 0x1).reqRef = Letter.A.code ++ 1#2 ∧ (request 2 0 0xD).reqRef = Letter.D.code ++ 1#2 ∧
    (request 2 0 0x2).reqRef = Letter.A.code ++ 2#2 ∧ (request 2 0 0xE).reqRef = Letter.D.code ++ 2#2 ∧
    (request 2 0 0x3).reqRef.extractLsb' 0 2 = 3 ∧ (request 2 0 0xF).reqRef.extractLsb' 0 2 = 3 := by
  decide
/-- The last index on the stack and the first past it. -/
theorem witness_StackPortsShowTheStack :
    1 < (st 0 0 0 0 [7, 8]).stack.length ∧ (st 0 0 0 0 [7, 8]).stack.length ≤ 2 := by decide
/-- The least `STACK_DEPTH`, with a full stack. -/
theorem witness_DepthWidthIsTheLeastThatFits :
    (st 0 0 0 0 [7] (.bounded 1)).config.stackDepth = .bounded 1 ∧ (st 0 0 0 0 [7] (.bounded 1)).Inv := by
  decide
theorem witness_CompatibleRefsAreEqualOrDisjoint :
    (compatible AL AL = true ∧ sharesBits AL AL = true) ∧
    (compatible AL AH = true ∧ sharesBits AL AH = false) ∧ sharesBits AL BX = false := by decide

/-- Compatible: equal, overlapping no bit in one letter, and Word with Word. Incompatible: both ways. -/
theorem witness_MovCopiesOrRaisesSizeMismatch :
    compatible AL AH = true ∧ compatible AX BX = true ∧ compatible AX AX = true ∧
    compatible AX AL = false ∧ compatible BL AX = false := by decide
theorem witness_XchgSwapsOrRaisesSizeMismatch :
    compatible BL CH = true ∧ compatible CX DX = true ∧ compatible AH AH = true ∧
    compatible AX BL = false ∧ compatible BL AX = false := by decide
theorem witness_XchgWritesCommute : compatible AL AH = true := by decide

theorem witness_TransferLeavesTheRestUnchanged :
    exec (.mov AL BH) (st 0x1234 0x5678 0 0) =
      .next { st 0x1234 0x3478 0 0 with rsp := ⟨true, .ok, 0, 0, 0, 0, 0⟩ } ∧
    exec (.xchg BL CH) (st 0 0x5678 0x9ABC 0) =
      .next { st 0 0x569A 0x78BC 0 with rsp := ⟨true, .ok, 0, 0, 0, 0, 0⟩ } ∧
    sharesBits BL BH = false ∧ sharesBits AX BL = false ∧ sharesBits AX CH = false :=
  ⟨rfl, rfl, by decide, by decide, by decide⟩
theorem witness_RepeatedTransferIsIdempotentOrRestores :
    exec (.mov AL BH) (st 0x1234 0x3478 0 0) =
      .next { st 0x1234 0x3478 0 0 with rsp := ⟨true, .ok, 0, 0, 0, 0, 0⟩ } ∧
    exec (.xchg BL CH) (st 0 0x569A 0x78BC 0) =
      .next { st 0 0x5678 0x9ABC 0 with rsp := ⟨true, .ok, 0, 0, 0, 0, 0⟩ } := ⟨rfl, rfl⟩

/-- The clauses at the boundary: a full stack, one entry short of it, and an unbounded one. -/
theorem witness_PushPushesOrRaises :
    (st 0 0 0 0 [1, 2] (.bounded 2)).config.stackDepth = .bounded (st 0 0 0 0 [1, 2] (.bounded 2)).stack.length ∧
    ((st 0 0 0 0 [1] (.bounded 2)).config.stackDepth ≠ .bounded (st 0 0 0 0 [1] (.bounded 2)).stack.length ∧
      AH.view ≠ .word) ∧
    ((st 0 0 0 0 [1] (.bounded 2)).config.stackDepth ≠ .bounded (st 0 0 0 0 [1] (.bounded 2)).stack.length ∧
      AX.view = .word) ∧
    (st 0 0 0 0 []).config.stackDepth ≠ .bounded (st 0 0 0 0 []).stack.length := by decide
/-- The clauses at the boundary: an empty stack and one entry. -/
theorem witness_PopPopsOrRaises :
    (st 0 0 0 0 []).stack = [] ∧ ((st 0 0 0 0 [1]).stack = 1 :: [] ∧ BH.view ≠ .word) ∧
    ((st 0 0 0 0 [1]).stack = 1 :: [] ∧ BX.view = .word) := by decide
theorem witness_StackInstructionsLeaveTheRestUnchanged :
    exec (.push AX) (st 9 0 0 0 [1]) =
      .next { st 9 0 0 0 [9, 1] with rsp := ⟨true, .ok, 0, 0, 0, 0, 0⟩ } ∧
    exec (.pop BX) (st 9 0 0 0 [1]) =
      .next { st 9 1 0 0 [] with rsp := ⟨true, .ok, 0, 0, 0, 0, 0⟩ } ∧ Letter.A ≠ BX.letter :=
  ⟨rfl, rfl, by decide⟩

/-- The first edge of a state with listed inputs accepts their request. -/
theorem accepts_of_inputs {s : State} {inp : Inputs} {rest : List Inputs} (h : s.inputs = inp :: rest)
    (h1 : inp.rst = false) (h2 : inp.reqValid = true) : s.accepts inp :=
  ⟨by simp [h], h1, h2⟩

/-- A state about to PUSH AX, then READ AX, then POP CX. -/
def lifo0 : State := st 9 0 0 0 [1] (.bounded 2) [execInputs 0x3000, readInputs AX, execInputs 0x4008]
def lifo1 : State :=
  { st 9 0 0 0 [9, 1] (.bounded 2) [readInputs AX, execInputs 0x4008] with
    rsp := ⟨true, .ok, 0, 0, 0, 0, 0⟩ }
def lifo2 : State :=
  { st 9 0 0 0 [9, 1] (.bounded 2) [execInputs 0x4008] with rsp := ⟨true, .ok, 9, 0, 0, 0, 0⟩ }
def lifo3 : State :=
  { st 9 0 9 0 [1] (.bounded 2) [] with rsp := ⟨true, .ok, 0, 0, 0, 0, 0⟩ }

theorem lifo0_presents : lifo0.presents (.push AX) := ⟨_, ⟨rfl, rfl, rfl⟩, rfl, rfl⟩
theorem lifo2_presents : lifo2.presents (.pop CX) := ⟨_, ⟨rfl, rfl, rfl⟩, rfl, rfl⟩

/-- The READ between the PUSH and the POP leaves the stack alone. -/
theorem lifo1_leaves : LeavesStackAlone lifo1 lifo2 := by
  refine ⟨rfl, ?_, .inl fun r => ⟨?_, ?_⟩⟩
  · rintro ⟨inp, h, h'⟩
    cases h
    cases h'
  all_goals
    rintro ⟨inp, ⟨h, _, _⟩, hk, _⟩
    cases h
    revert hk
    decide

theorem witness_StackIsLastInFirstOut :
    Pushes lifo0 [9] lifo2 ∧ Pops lifo2 [9] lifo3 ∧ ([9] : List Word).length = ([9] : List Word).length ∧
    exec (.push AX) (st 9 0 0 0 [1]) =
      .next { st 9 0 0 0 [9, 1] with rsp := ⟨true, .ok, 0, 0, 0, 0, 0⟩ } ∧ CX.view = .word :=
  ⟨.other (.push (t := lifo0) (u := lifo1) AX .done lifo0_presents rfl rfl) lifo1_leaves,
    .pop (t := lifo2) (u := lifo3) CX .done lifo2_presents rfl rfl, rfl, rfl, rfl⟩

/-- A state whose next edge carries one request. -/
def presenting (inp : Inputs) (stack : List Word := [1]) : State :=
  st 9 8 7 6 stack (.bounded 2) [inp]

/-- A successful PUSH and POP, a failed PUSH, another request, a reset. -/
theorem witness_OnlyPushAndPopChangeTheStack :
    ((presenting (execInputs 0x3000)).presents (.push AX) ∧
      (after (execInputs 0x3000) (presenting (execInputs 0x3000))).map (·.rsp.status) = some .ok) ∧
    ((presenting (execInputs 0x4000)).presents (.pop AX) ∧
      (after (execInputs 0x4000) (presenting (execInputs 0x4000))).map (·.rsp.status) = some .ok) ∧
    ((presenting (execInputs 0x3010)).presents (.push AL) ∧
      (after (execInputs 0x3010) (presenting (execInputs 0x3010))).map (·.rsp.status) =
        some .invalidOperandWidth) ∧
    ((∀ r, ¬ lifo1.presents (.push r) ∧ ¬ lifo1.presents (.pop r)) ∧ ¬ lifo1.presentsReset) ∧
    (presenting resetInputs).presentsReset := by
  refine ⟨⟨⟨_, ⟨rfl, rfl, rfl⟩, rfl, rfl⟩, by decide⟩, ⟨⟨_, ⟨rfl, rfl, rfl⟩, rfl, rfl⟩, by decide⟩,
    ⟨⟨_, ⟨rfl, rfl, rfl⟩, rfl, rfl⟩, by decide⟩, ⟨?_, lifo1_leaves.2.1⟩, ⟨_, rfl, rfl⟩⟩
  intro r
  obtain ⟨_, _, h | h⟩ := lifo1_leaves
  · exact h r
  · exact (h rfl).elim

theorem witness_SizeMismatchExactlyOnIncompatibleOperands :
    (presenting (execInputs 0x1005)).accepts (execInputs 0x1005) ∧
    (presenting (execInputs 0x1005)).presents (.mov AX BL) ∧
    (presenting (execInputs 0x2050)).presents (.xchg BL AX) ∧
    compatible AX BL = false ∧ compatible BL AX = false :=
  ⟨⟨rfl, rfl, rfl⟩, ⟨_, ⟨rfl, rfl, rfl⟩, rfl, rfl⟩, ⟨_, ⟨rfl, rfl, rfl⟩, rfl, rfl⟩, rfl, rfl⟩
theorem witness_InvalidOperandWidthExactlyOnByteViews :
    ((presenting (execInputs 0x3010)).accepts (execInputs 0x3010) ∧
      (presenting (execInputs 0x3010)).presents (.push AL) ∧
      (presenting (execInputs 0x3010)).config.stackDepth ≠
        .bounded (presenting (execInputs 0x3010)).stack.length) ∧
    ((presenting (execInputs 0x4006)).presents (.pop BH) ∧ (presenting (execInputs 0x4006)).stack ≠ []) :=
  ⟨⟨⟨rfl, rfl, rfl⟩, ⟨_, ⟨rfl, rfl, rfl⟩, rfl, rfl⟩, by decide⟩, ⟨_, ⟨rfl, rfl, rfl⟩, rfl, rfl⟩, by decide⟩
theorem witness_StackErrorsExactlyAtTheEnds :
    ((presenting (execInputs 0x4001) []).accepts (execInputs 0x4001) ∧
      (presenting (execInputs 0x4001) []).presents (.pop AL) ∧ (presenting (execInputs 0x4001) []).stack = []) ∧
    ((presenting (execInputs 0x3000) [1, 2]).presents (.push AX) ∧
      (presenting (execInputs 0x3000) [1, 2]).config.stackDepth =
        .bounded (presenting (execInputs 0x3000) [1, 2]).stack.length) :=
  ⟨⟨⟨rfl, rfl, rfl⟩, ⟨_, ⟨rfl, rfl, rfl⟩, rfl, rfl⟩, rfl⟩, ⟨_, ⟨rfl, rfl, rfl⟩, rfl, rfl⟩, rfl⟩
theorem witness_IllegalEncodingExactlyOnIllegalRequests :
    (presenting (request 0 0x1100)).accepts (request 0 0x1100) ∧
    (¬ ∃ i, decode (request 0 0x1100).reqInstr = .ok i) ∧
    (presenting (request 3)).accepts (request 3) ∧ (request 3).reqKind = 3 ∧
    (presenting (request 2 0 0xB)).accepts (request 2 0 0xB) ∧ (request 2 0 0xB).reqRef.extractLsb' 0 2 = 3 :=
  ⟨⟨rfl, rfl, rfl⟩, undecodable (e := .reservedField) (by decide), ⟨rfl, rfl, rfl⟩, rfl, ⟨rfl, rfl, rfl⟩, rfl⟩
theorem witness_ErrorsAreAtomic :
    (presenting (execInputs 0x1005)).accepts (execInputs 0x1005) ∧
    step (presenting (execInputs 0x1005)) =
      .next { presenting (execInputs 0x1005) with inputs := [], rsp := rspError .sizeMismatch 0 5 16 8 } ∧
    Status.sizeMismatch ≠ .ok := ⟨⟨rfl, rfl, rfl⟩, rfl, by decide⟩
/-- One request a clause. -/
theorem witness_FirstErrorIsReported :
    ((presenting (request 3)).accepts (request 3) ∧ legalRequest 3 0 0 = false) ∧
    (presenting (execInputs 0x3010) [1, 2]).presents (.push AL) ∧
    (presenting (execInputs 0x4001) []).presents (.pop AL) ∧
    (presenting (execInputs 0x1005)).presents (.mov AX BL) ∧
    (presenting (execInputs 0x2004)).presents (.xchg AX BX) ∧
    ((request 1 0 0xE).reqKind = 1 ∧ (request 2 0 0xE).reqKind = 2 ∧ legalRef 0xE = true) :=
  ⟨⟨⟨rfl, rfl, rfl⟩, rfl⟩, ⟨_, ⟨rfl, rfl, rfl⟩, rfl, rfl⟩, ⟨_, ⟨rfl, rfl, rfl⟩, rfl, rfl⟩,
    ⟨_, ⟨rfl, rfl, rfl⟩, rfl, rfl⟩, ⟨_, ⟨rfl, rfl, rfl⟩, rfl, rfl⟩, rfl, rfl, rfl⟩
theorem witness_NoRequestReadsTheResponse :
    (presenting (readInputs AX)).accepts (readInputs AX) := ⟨rfl, rfl, rfl⟩

/-- The renaming that swaps A and B. -/
def swapAB : Letter → Letter
  | .A => .B
  | .B => .A
  | .C => .C
  | .D => .D

theorem witness_LettersAreTreatedAlike :
    Function.Injective swapAB ∧
    (∀ L, cellOf (swapAB L) (st 2 1 3 4).cells = cellOf L (st 1 2 3 4).cells) ∧
    (st 2 1 3 4).stack = (st 1 2 3 4).stack ∧ (st 2 1 3 4).config = (st 1 2 3 4).config ∧
    exec (.mov AX CX) (st 1 2 3 4) =
      .next { st 1 2 1 4 with rsp := ⟨true, .ok, 0, 0, 0, 0, 0⟩ } ∧
    exec (.mov AX CL) (st 1 2 3 4) =
      .next { st 1 2 3 4 with rsp := ⟨true, .sizeMismatch, 0, AX.code, CL.code, 16, 8⟩ } ∧
    exec (.push BL) (st 1 2 3 4) =
      .next { st 1 2 3 4 with rsp := ⟨true, .invalidOperandWidth, 0, BL.code, 0, 0, 0⟩ } := by
  refine ⟨?_, ?_, rfl, rfl, rfl, rfl, rfl⟩
  · intro L M h
    cases L <;> cases M <;> first | rfl | cases h
  · intro L
    cases L <;> rfl

theorem witness_StepRunsTheDecodedInstruction :
    (presenting (execInputs 0x1016)).inputs = execInputs 0x1016 :: [] ∧ (execInputs 0x1016).rst = false ∧
    (execInputs 0x1016).reqValid = true ∧ (execInputs 0x1016).reqKind = 0 ∧
    decode (execInputs 0x1016).reqInstr = .ok (.mov AL BH) ∧ (Instr.mov AL BH).wellFormed = true := by decide
theorem witness_PlacedWordRunsNext :
    decodeTableWord 16 0x400C = some (.pop DX) ∧ decodeTableWord 16 0 = none := by decide
theorem witness_ResetEdgeGivesTheResetValues :
    (presenting { writeInputs AX 0x5555 with rst := true }).inputs =
      { writeInputs AX 0x5555 with rst := true } :: [] ∧
    ({ writeInputs AX 0x5555 with rst := true } : Inputs).rst = true := by decide
theorem witness_IdleEdgeHoldsTheState :
    ((presenting idleInputs).inputs = idleInputs :: [] ∧ idleInputs.rst = false ∧
      idleInputs.reqValid = false) ∧ State.reset.inputs = [] := by decide
theorem witness_OneResponsePerAcceptedRequest :
    step (presenting (readInputs AX)) =
      .next { presenting (readInputs AX) with inputs := [], rsp := ⟨true, .ok, 9, 0, 0, 0, 0⟩ } := rfl
/-- A PUSH that fills the stack, from a state that meets the invariant. -/
theorem witness_StepKeepsTheDepthBound :
    (presenting (execInputs 0x3000)).Inv ∧
    step (presenting (execInputs 0x3000)) =
      .next { presenting (execInputs 0x3000) [9, 1] with inputs := [], rsp := ⟨true, .ok, 0, 0, 0, 0, 0⟩ } :=
  ⟨by decide, rfl⟩
theorem witness_ResetMeetsTheDepthBound : (presenting resetInputs).config.legal = true := by decide
theorem witness_StepKeepsTheResponseWellFormed :
    responseWellFormed (presenting (execInputs 0x1005)).rsp = true ∧
    step (presenting (execInputs 0x1005)) =
      .next { presenting (execInputs 0x1005) with inputs := [], rsp := rspError .sizeMismatch 0 5 16 8 } :=
  ⟨by decide, rfl⟩

end Sys2Proof.Tests
end

/-! ## Views as functions of the cell's value (10_state.md R22, R23)

A view reads and writes bits of one cell, whatever the letter: `readBits` and `writeBits` are that part of
`viewRead` and `viewWrite`, and the letter only says which cell they are applied to. -/

namespace Sys2Proof.Machine

/-- What a view shows of its cell's value. -/
def readBits : View → Word → Word
  | .word, w => w
  | .lowByte, w => (lowByteOf w).setWidth 16
  | .highByte, w => (highByteOf w).setWidth 16

/-- The cell's value after a write of v through a view, where it held w. -/
def writeBits : View → Word → Word → Word
  | .word, v, _ => v
  | .lowByte, v, w => joinBytes (highByteOf w) (lowByteOf v)
  | .highByte, v, w => joinBytes (lowByteOf v) (lowByteOf w)

theorem viewRead_eq_readBits (r : RegisterRef) (c : Cells) :
    viewRead r c = readBits r.view (cellOf r.letter c) := by
  obtain ⟨L, u⟩ := r
  cases u <;> rfl

theorem viewWrite_eq_setCell (r : RegisterRef) (v : Word) (c : Cells) :
    viewWrite r v c = setCell r.letter (writeBits r.view v (cellOf r.letter c)) c := by
  obtain ⟨L, u⟩ := r
  cases u <;> rfl

/-- A write never affects another letter (R23). -/
theorem cellOf_viewWrite_of_ne {r : RegisterRef} {L : Letter} (h : L ≠ r.letter) (v : Word) (c : Cells) :
    cellOf L (viewWrite r v c) = cellOf L c := by
  rw [viewWrite_eq_setCell, cellOf_setCell_of_ne h]

theorem viewRead_viewWrite_same_letter (L : Letter) (u u' : View) (v : Word) (c : Cells) :
    viewRead ⟨L, u⟩ (viewWrite ⟨L, u'⟩ v c) = readBits u (writeBits u' v (cellOf L c)) := by
  rw [viewRead_eq_readBits, viewWrite_eq_setCell, cellOf_setCell_self]

/-! ### The bytes as masks and shifts -/

theorem zext_lowByteOf (w : Word) : (lowByteOf w).setWidth 16 = w &&& 0xFF := by
  apply BitVec.eq_of_toNat_eq
  have mask : w.toNat &&& 255 = w.toNat % 256 := Nat.and_two_pow_sub_one_eq_mod w.toNat 8
  rw [BitVec.toNat_setWidth, lowByteOf_toNat, BitVec.toNat_and, show (0xFF : Word).toNat = 255 from rfl]
  omega

theorem zext_highByteOf (w : Word) : (highByteOf w).setWidth 16 = w >>> 8 := by
  apply BitVec.eq_of_toNat_eq
  have := w.isLt
  rw [BitVec.toNat_setWidth, highByteOf_toNat, BitVec.toNat_ushiftRight, Nat.shiftRight_eq_div_pow]
  omega

theorem joinBytes_eq_shiftLeft_or (h l : Byte) :
    joinBytes h l = (h.setWidth 16 <<< 8) ||| l.setWidth 16 := by
  rw [joinBytes, BitVec.append_def, BitVec.shiftLeftZeroExtend_eq, BitVec.setWidth'_eq]

/-- The high byte back in its place is the cell with its low half masked off. -/
theorem ushiftRight_shiftLeft_eight (w : Word) : w >>> 8 <<< 8 = w &&& 0xFF00 := by
  rw [BitVec.shiftLeft_ushiftRight]
  exact congrArg (w &&& ·) (by decide)

/-- A cell is its high byte shifted up, joined with its low byte. -/
theorem eq_shiftLeft_or (w : Word) : w = (w >>> 8 <<< 8) ||| (w &&& 0xFF) := by
  rw [← zext_highByteOf, ← zext_lowByteOf, ← joinBytes_eq_shiftLeft_or, joinBytes_high_low]

/-- A LowByte write keeps the upper half (40_register_access.md R92). -/
theorem writeBits_lowByte (v w : Word) : writeBits .lowByte v w = (w &&& 0xFF00) ||| (v &&& 0xFF) := by
  rw [writeBits, joinBytes_eq_shiftLeft_or, zext_highByteOf, zext_lowByteOf, ushiftRight_shiftLeft_eight]

/-- A HighByte write keeps the lower half (90_conflicts.md C5). -/
theorem writeBits_highByte (v w : Word) :
    writeBits .highByte v w = (w &&& (0xFF : Word)) ||| ((v &&& 0xFF) <<< 8) := by
  rw [writeBits, joinBytes_eq_shiftLeft_or, zext_lowByteOf, zext_lowByteOf, BitVec.or_comm]

theorem readBits_lowByte_writeBits_lowByte (v w : Word) :
    readBits .lowByte (writeBits .lowByte v w) = v &&& 0xFF := by
  rw [readBits, writeBits, lowByteOf_joinBytes, zext_lowByteOf]

theorem readBits_highByte_writeBits_lowByte (v w : Word) :
    readBits .highByte (writeBits .lowByte v w) = readBits .highByte w := by
  rw [readBits, writeBits, highByteOf_joinBytes, readBits]

theorem readBits_highByte_writeBits_highByte (v w : Word) :
    readBits .highByte (writeBits .highByte v w) = v &&& 0xFF := by
  rw [readBits, writeBits, highByteOf_joinBytes, zext_lowByteOf]

theorem readBits_lowByte_writeBits_highByte (v w : Word) :
    readBits .lowByte (writeBits .highByte v w) = readBits .lowByte w := by
  rw [readBits, writeBits, lowByteOf_joinBytes, readBits]

/-- Settles O8: within the letter every read is `readBits` of `writeBits`, whose values are the
statement's masks and shifts; outside it a write changes no cell. -/
theorem viewsOfOneLetterAlias : Obligations.ViewsOfOneLetterAlias := by
  unfold Obligations.ViewsOfOneLetterAlias
  intro c L v
  simp only [viewRead_viewWrite_same_letter, viewRead_eq_readBits _ c]
  refine ⟨?join, ⟨rfl, zext_lowByteOf v, zext_highByteOf v⟩,
    ⟨readBits_lowByte_writeBits_lowByte v _, readBits_highByte_writeBits_lowByte v _,
      writeBits_lowByte v _⟩,
    ⟨readBits_highByte_writeBits_highByte v _, readBits_lowByte_writeBits_highByte v _,
      writeBits_highByte v _⟩,
    fun r hr => cellOf_viewWrite_of_ne hr.symm v c⟩
  case join =>
    simp only [readBits, zext_highByteOf, zext_lowByteOf]
    exact eq_shiftLeft_or _

end Sys2Proof.Machine

/-! ## The depth bound (10_state.md R34)

What an instruction, a request and an edge do to the stack is said once each; the invariant needs no more. -/

namespace Sys2Proof.Machine

variable {s t : State}

/-- No instruction changes the parameter, and an instruction keeps the stack, pushes one entry on a stack
that is not full, or takes the top. -/
theorem exec_config_stack {i : Instr} (h : exec i s = .next t) :
    t.config = s.config ∧
      (t.stack = s.stack ∨ (stackFull s = false ∧ ∃ v, t.stack = v :: s.stack) ∨
        ∃ v, s.stack = v :: t.stack) := by
  cases i with
  | mov src dst => obtain ⟨_, rfl⟩ | ⟨_, rfl⟩ := execMov_cases h <;> exact ⟨rfl, .inl rfl⟩
  | xchg src dst => obtain ⟨_, rfl⟩ | ⟨_, rfl⟩ := execXchg_cases h <;> exact ⟨rfl, .inl rfl⟩
  | push src =>
    obtain ⟨_, rfl⟩ | ⟨_, _, rfl⟩ | ⟨notFull, _, rfl⟩ := execPush_cases h
    · exact ⟨rfl, .inl rfl⟩
    · exact ⟨rfl, .inl rfl⟩
    · exact ⟨rfl, .inr (.inl ⟨notFull, _, rfl⟩)⟩
  | pop dst =>
    obtain ⟨_, rfl⟩ | ⟨_, _, _, _, rfl⟩ | ⟨v, _, top, _, rfl⟩ := execPop_cases h
    · exact ⟨rfl, .inl rfl⟩
    · exact ⟨rfl, .inl rfl⟩
    · exact ⟨rfl, .inr (.inr ⟨v, top⟩)⟩

/-- A request that is not an instruction changes neither the parameter nor the stack. -/
theorem accept_exec_or_config_stack {inp : Inputs} (h : accept inp s = .next t) :
    (∃ i, exec i s = .next t) ∨ (t.config = s.config ∧ t.stack = s.stack) := by
  obtain ⟨_, i, _, hi⟩ | ⟨_, _, rfl⟩ | ⟨_, _, _, rfl⟩ | ⟨_, _, _, rfl⟩ | ⟨_, _, rfl⟩ | ⟨_, _, _, rfl⟩ :=
    accept_cases h
  · exact .inl ⟨i, hi⟩
  all_goals exact .inr ⟨rfl, rfl⟩

theorem inv_of_stack_length_le (hs : s.Inv) (config : t.config = s.config)
    (shorter : t.stack.length ≤ s.stack.length) : t.Inv := by
  obtain ⟨legal, within⟩ := hs
  refine ⟨config ▸ legal, withinDepth_iff.mpr fun n hn => ?_⟩
  exact shorter.trans (withinDepth_iff.mp within n (config ▸ hn))

/-- One entry more fits where the stack was within its bound and not at it. -/
theorem inv_of_push {v : Word} (hs : s.Inv) (config : t.config = s.config) (notFull : stackFull s = false)
    (pushed : t.stack = v :: s.stack) : t.Inv := by
  obtain ⟨legal, within⟩ := hs
  refine ⟨config ▸ legal, withinDepth_iff.mpr fun n hn => ?_⟩
  have bound : s.config.stackDepth = .bounded n := config ▸ hn
  have le : s.stack.length ≤ n := withinDepth_iff.mp within n bound
  have ne : s.stack.length ≠ n := by
    rintro rfl
    simp [stackFull_iff.mpr bound] at notFull
  rw [pushed, List.length_cons]
  omega

theorem exec_keeps_inv {i : Instr} (hs : s.Inv) (h : exec i s = .next t) : t.Inv := by
  obtain ⟨config, kept | ⟨notFull, v, pushed⟩ | ⟨v, popped⟩⟩ := exec_config_stack h
  · exact inv_of_stack_length_le hs config (by rw [kept])
  · exact inv_of_push hs config notFull pushed
  · exact inv_of_stack_length_le hs config (by simp [popped])

theorem accept_keeps_inv {inp : Inputs} (hs : s.Inv) (h : accept inp s = .next t) : t.Inv := by
  obtain ⟨i, hi⟩ | ⟨config, stack⟩ := accept_exec_or_config_stack h
  · exact exec_keeps_inv hs hi
  · exact inv_of_stack_length_le hs config (by rw [stack])

theorem step_keeps_inv (hs : s.Inv) (h : step s = .next t) : t.Inv := by
  obtain ⟨_, rfl⟩ | ⟨inp, rest, _, ⟨_, rfl⟩ | ⟨_, _, rfl⟩ | ⟨_, _, accepted⟩⟩ := step_cases h
  · exact inv_of_stack_length_le hs rfl le_rfl
  · exact inv_of_stack_length_le hs rfl (Nat.zero_le _)
  · exact inv_of_stack_length_le hs rfl le_rfl
  · have hs' : (s.withInputs rest).Inv := hs
    exact accept_keeps_inv hs' accepted

/-- Settles O46: `step_keeps_inv`; the ranges of cells and entries are those of a 16-bit word. -/
theorem stepKeepsTheDepthBound : Obligations.StepKeepsTheDepthBound := by
  unfold Obligations.StepKeepsTheDepthBound
  intro s t hs h
  obtain ⟨legal, within⟩ : t.Inv := step_keeps_inv hs h
  have inRange (v : Word) : v.toNat ≤ 0xFFFF := Nat.le_of_lt_succ v.isLt
  exact ⟨⟨legal, within⟩, fun L => inRange _, fun v _ => inRange v, withinDepth_iff.mp within⟩

end Sys2Proof.Machine

/-! ## Renaming the letters (10_state.md R25)

A simulation: states whose cells differ by the renaming f are related, every operation of the instructions
keeps the relation, and so does each instruction. -/

namespace Sys2Proof

@[simp] theorem refOf_code (r : RegisterRef) : refOf r.code = some r := by
  obtain ⟨L, u⟩ := r
  cases L <;> cases u <;> rfl

/-- A code names one RegisterRef (30_encoding.md R71). -/
theorem RegisterRef.eq_of_code_eq {r q : RegisterRef} (h : r.code = q.code) : r = q := by
  have names : some r = some q := by rw [← refOf_code r, h, refOf_code q]
  exact Option.some.inj names

namespace Machine

/-- The error with its operands' letters renamed. -/
def ExecError.rename (f : Letter → Letter) : ExecError → ExecError
  | .sizeMismatch ws wd src dst => .sizeMismatch ws wd (src.rename f) (dst.rename f)
  | .invalidOperandWidth r => .invalidOperandWidth (r.rename f)
  | .stackUnderflow => .stackUnderflow
  | .stackOverflow => .stackOverflow
  | .illegalEncoding => .illegalEncoding

/-- c' holds under the letter f L what c holds under L. -/
def CellsRenamed (f : Letter → Letter) (c c' : Cells) : Prop := ∀ L, cellOf (f L) c' = cellOf L c

/-- The states differ in their cells by the renaming f, and agree in the stack and in the parameter. -/
structure StateRenamed (f : Letter → Letter) (s s' : State) : Prop where
  cells : CellsRenamed f s.cells s'.cells
  stack : s'.stack = s.stack
  config : s'.config = s.config

/-- The responses agree but for the names of the operands, which are renamed. -/
structure ResponseRenamed (f : Letter → Letter) (p p' : Response) : Prop where
  status : p'.status = p.status
  data : p'.data = p.data
  width0 : p'.width0 = p.width0
  width1 : p'.width1 = p.width1
  name0 : ∀ r : RegisterRef, p.status = .sizeMismatch ∨ p.status = .invalidOperandWidth →
    p.name0 = r.code → p'.name0 = (r.rename f).code
  name1 : ∀ r : RegisterRef, p.status = .sizeMismatch →
    p.name1 = r.code → p'.name1 = (r.rename f).code

/-- Whatever next state o answers, o' answers that state renamed, with the response renamed. -/
def OutcomeRenamed (f : Letter → Letter) (o o' : Host.Outcome State Fault Refusal) : Prop :=
  ∀ t, o = .next t → ∃ t', o' = .next t' ∧ StateRenamed f t t' ∧ ResponseRenamed f t.rsp t'.rsp

variable {f : Letter → Letter} {c c' : Cells} {s s' : State}

/-! ### Cells -/

theorem viewRead_rename (hc : CellsRenamed f c c') (r : RegisterRef) :
    viewRead (r.rename f) c' = viewRead r c := by
  rw [viewRead_eq_readBits, viewRead_eq_readBits]
  exact congrArg (readBits r.view) (hc r.letter)

theorem cellsRenamed_setCell (hf : Function.Injective f) (hc : CellsRenamed f c c') (L : Letter)
    (v : Word) : CellsRenamed f (setCell L v c) (setCell (f L) v c') := by
  intro M
  simp [cellOf_setCell, hf.eq_iff, hc M]

theorem cellsRenamed_viewWrite (hf : Function.Injective f) (hc : CellsRenamed f c c') (r : RegisterRef)
    (v : Word) : CellsRenamed f (viewWrite r v c) (viewWrite (r.rename f) v c') := by
  have old : cellOf (r.rename f).letter c' = cellOf r.letter c := hc r.letter
  rw [viewWrite_eq_setCell, viewWrite_eq_setCell, old]
  exact cellsRenamed_setCell hf hc r.letter _

theorem cellsRenamed_viewSwap (hf : Function.Injective f) (hc : CellsRenamed f c c')
    (src dst : RegisterRef) :
    CellsRenamed f (viewSwap src dst c) (viewSwap (src.rename f) (dst.rename f) c') := by
  rw [viewSwap, viewSwap, viewRead_rename hc, viewRead_rename hc]
  exact cellsRenamed_viewWrite hf (cellsRenamed_viewWrite hf hc src _) dst _

/-! ### Ends of a request -/

theorem responseRenamed_okResponse (data : Word) :
    ResponseRenamed f (okResponse data) (okResponse data) where
  status := rfl
  data := rfl
  width0 := rfl
  width1 := rfl
  name0 _ h _ := by simp [okResponse] at h
  name1 _ h _ := by simp [okResponse] at h

/-- The names matter in an error that records them, where each is the code of one RegisterRef only. -/
theorem responseRenamed_errorResponse (e : ExecError) :
    ResponseRenamed f (errorResponse e) (errorResponse (e.rename f)) where
  status := by cases e <;> rfl
  data := rfl
  width0 := by cases e <;> rfl
  width1 := by cases e <;> rfl
  name0 r h hr := by
    cases e with
    | sizeMismatch ws wd src dst => obtain rfl := RegisterRef.eq_of_code_eq hr; rfl
    | invalidOperandWidth q => obtain rfl := RegisterRef.eq_of_code_eq hr; rfl
    | stackUnderflow | stackOverflow | illegalEncoding => simp [errorResponse, ExecError.status] at h
  name1 r h hr := by
    cases e with
    | sizeMismatch ws wd src dst => obtain rfl := RegisterRef.eq_of_code_eq hr; rfl
    | invalidOperandWidth | stackUnderflow | stackOverflow | illegalEncoding =>
      simp [errorResponse, ExecError.status] at h

theorem outcomeRenamed_complete (hs : StateRenamed f s s') (data : Word) :
    OutcomeRenamed f (complete data s) (complete data s') := by
  intro t h
  obtain rfl := complete_eq_next.mp h
  exact ⟨_, rfl, ⟨hs.cells, hs.stack, hs.config⟩, responseRenamed_okResponse data⟩

theorem outcomeRenamed_raise (hs : StateRenamed f s s') (e : ExecError) :
    OutcomeRenamed f (raise e s) (raise (e.rename f) s') := by
  intro t h
  obtain rfl := raise_eq_next.mp h
  exact ⟨_, rfl, ⟨hs.cells, hs.stack, hs.config⟩, responseRenamed_errorResponse e⟩

/-! ### States -/

theorem readView_rename (hs : StateRenamed f s s') (r : RegisterRef) :
    readView (r.rename f) s' = readView r s :=
  viewRead_rename hs.cells r

theorem stateRenamed_withStack (hs : StateRenamed f s s') (st : List Word) :
    StateRenamed f (s.withStack st) (s'.withStack st) :=
  ⟨hs.cells, rfl, hs.config⟩

theorem stateRenamed_pushStack (hs : StateRenamed f s s') (v : Word) :
    StateRenamed f (pushStack v s) (pushStack v s') :=
  ⟨hs.cells, congrArg (v :: ·) hs.stack, hs.config⟩

theorem stateRenamed_withCells (hs : StateRenamed f s s') (hc : CellsRenamed f c c') :
    StateRenamed f (s.withCells c) (s'.withCells c') :=
  ⟨hc, hs.stack, hs.config⟩

theorem stateRenamed_writeView (hf : Function.Injective f) (hs : StateRenamed f s s') (r : RegisterRef)
    (v : Word) : StateRenamed f (writeView r v s) (writeView (r.rename f) v s') :=
  stateRenamed_withCells hs (cellsRenamed_viewWrite hf hs.cells r v)

theorem stackFull_of_stateRenamed (hs : StateRenamed f s s') : stackFull s' = stackFull s := by
  rw [stackFull, stackFull, hs.stack, hs.config]

/-! ### Instructions: a letter says which cell is meant, and decides nothing -/

theorem rename_view (r : RegisterRef) : (r.rename f).view = r.view := rfl

theorem compatible_rename (src dst : RegisterRef) :
    compatible (src.rename f) (dst.rename f) = compatible src dst := rfl

theorem outcomeRenamed_execMov (hf : Function.Injective f) (hs : StateRenamed f s s')
    (src dst : RegisterRef) :
    OutcomeRenamed f (execMov src dst s) (execMov (src.rename f) (dst.rename f) s') := by
  unfold execMov
  rw [compatible_rename, readView_rename hs]
  split
  · exact outcomeRenamed_complete (stateRenamed_writeView hf hs dst _) 0
  · exact outcomeRenamed_raise hs (sizeMismatchOf src dst)

theorem outcomeRenamed_execXchg (hf : Function.Injective f) (hs : StateRenamed f s s')
    (src dst : RegisterRef) :
    OutcomeRenamed f (execXchg src dst s) (execXchg (src.rename f) (dst.rename f) s') := by
  unfold execXchg
  rw [compatible_rename]
  split
  · exact outcomeRenamed_complete (stateRenamed_withCells hs (cellsRenamed_viewSwap hf hs.cells src dst)) 0
  · exact outcomeRenamed_raise hs (sizeMismatchOf src dst)

theorem outcomeRenamed_execPush (hs : StateRenamed f s s') (src : RegisterRef) :
    OutcomeRenamed f (execPush src s) (execPush (src.rename f) s') := by
  unfold execPush
  rw [stackFull_of_stateRenamed hs, readView_rename hs, rename_view]
  split
  · exact outcomeRenamed_raise hs .stackOverflow
  · split
    · exact outcomeRenamed_raise hs (.invalidOperandWidth src)
    · exact outcomeRenamed_complete (stateRenamed_pushStack hs _) 0

theorem outcomeRenamed_execPop (hf : Function.Injective f) (hs : StateRenamed f s s')
    (dst : RegisterRef) :
    OutcomeRenamed f (execPop dst s) (execPop (dst.rename f) s') := by
  unfold execPop
  rw [hs.stack, rename_view]
  split
  · exact outcomeRenamed_raise hs .stackUnderflow
  · split
    · exact outcomeRenamed_raise hs (.invalidOperandWidth dst)
    · exact outcomeRenamed_complete (stateRenamed_writeView hf (stateRenamed_withStack hs _) dst _) 0

theorem outcomeRenamed_exec (hf : Function.Injective f) (hs : StateRenamed f s s') (i : Instr) :
    OutcomeRenamed f (exec i s) (exec (i.rename f) s') := by
  cases i with
  | mov src dst => exact outcomeRenamed_execMov hf hs src dst
  | xchg src dst => exact outcomeRenamed_execXchg hf hs src dst
  | push src => exact outcomeRenamed_execPush hs src
  | pop dst => exact outcomeRenamed_execPop hf hs dst

/-- Settles O38: `outcomeRenamed_exec`, its relation on states and responses taken apart. -/
theorem lettersAreTreatedAlike : Obligations.LettersAreTreatedAlike := by
  unfold Obligations.LettersAreTreatedAlike
  intro f hf i s s' t cells stack config h
  obtain ⟨t', h', ht, hr⟩ := outcomeRenamed_exec hf ⟨cells, stack, config⟩ i t h
  exact ⟨t', h', ht.cells, ht.stack, hr.status, hr.data, hr.width0, hr.width1, hr.name0, hr.name1⟩

end Machine

end Sys2Proof

/-! ## The instruction word as its four fields (30_encoding.md R70, R74, R79)

A word is its fields, so an instruction's word is known by them, and a mask and match is a condition on
each of them. The decoder, the opcode map and the encoder are compared through the fields. -/

namespace Sys2Proof

open Machine

variable {w : Word}

/-! ### Fields -/

@[simp] theorem opField_encodeWord (op : BitVec 4) (src dst : RefCode) :
    opField (encodeWord op src dst) = op := by
  unfold opField encodeWord
  rw [BitVec.extractLsb'_append_eq_of_le (by decide), BitVec.extractLsb'_append_eq_of_le (by decide)]
  exact BitVec.extractLsb'_append_eq_left

@[simp] theorem rsvField_encodeWord (op : BitVec 4) (src dst : RefCode) :
    rsvField (encodeWord op src dst) = 0 := by
  unfold rsvField encodeWord
  rw [BitVec.extractLsb'_append_eq_of_le (by decide), BitVec.extractLsb'_append_eq_of_le (by decide)]
  exact BitVec.extractLsb'_append_eq_right

@[simp] theorem srcField_encodeWord (op : BitVec 4) (src dst : RefCode) :
    srcField (encodeWord op src dst) = src := by
  unfold srcField encodeWord
  rw [BitVec.extractLsb'_append_eq_of_le (by decide)]
  exact BitVec.extractLsb'_append_eq_right

@[simp] theorem dstField_encodeWord (op : BitVec 4) (src dst : RefCode) :
    dstField (encodeWord op src dst) = dst :=
  BitVec.extractLsb'_append_eq_right

/-- Words are told apart by their fields. -/
theorem word_eq_iff_fields {u w : Word} :
    u = w ↔ opField u = opField w ∧ rsvField u = rsvField w ∧ srcField u = srcField w ∧
      dstField u = dstField w := by
  refine ⟨by rintro rfl; exact ⟨rfl, rfl, rfl, rfl⟩, fun h => ?_⟩
  simp only [opField, rsvField, srcField, dstField, BitVec.toNat_eq, BitVec.extractLsb'_toNat,
    Nat.shiftRight_eq_div_pow] at h ⊢
  omega

theorem eq_encodeWord_iff {op : BitVec 4} {src dst : RefCode} :
    w = encodeWord op src dst ↔
      rsvField w = 0 ∧ opField w = op ∧ srcField w = src ∧ dstField w = dst := by
  rw [word_eq_iff_fields, opField_encodeWord, rsvField_encodeWord, srcField_encodeWord,
    dstField_encodeWord, and_left_comm]

/-! A mask and match is a condition on the fields that the mask keeps. -/

theorem and_fifteen (x : BitVec 4) : x &&& 15#4 = x := BitVec.and_allOnes

theorem and_FF00_eq_iff {op : BitVec 4} :
    w &&& 0xFF00 = encodeWord op 0 0 ↔ rsvField w = 0 ∧ opField w = op := by
  rw [eq_encodeWord_iff]
  simp [rsvField, opField, srcField, dstField, BitVec.extractLsb'_and, and_fifteen]

theorem and_FF0F_eq_iff {op : BitVec 4} :
    w &&& 0xFF0F = encodeWord op 0 0 ↔ rsvField w = 0 ∧ opField w = op ∧ dstField w = 0 := by
  rw [eq_encodeWord_iff]
  simp [rsvField, opField, srcField, dstField, BitVec.extractLsb'_and, and_fifteen]

theorem and_FFF0_eq_iff {op : BitVec 4} :
    w &&& 0xFFF0 = encodeWord op 0 0 ↔ rsvField w = 0 ∧ opField w = op ∧ srcField w = 0 := by
  rw [eq_encodeWord_iff]
  simp [rsvField, opField, srcField, dstField, BitVec.extractLsb'_and, and_fifteen]

/-- The view code in the src field. -/
theorem srcField_view (w : Word) : (srcField w).extractLsb' 0 2 = w.extractLsb' 4 2 := by
  simp only [srcField, BitVec.toNat_eq, BitVec.extractLsb'_toNat, Nat.shiftRight_eq_div_pow]
  omega

/-- The view code in the dst field. -/
theorem dstField_view (w : Word) : (dstField w).extractLsb' 0 2 = w.extractLsb' 0 2 := by
  simp only [dstField, BitVec.toNat_eq, BitVec.extractLsb'_toNat, Nat.shiftRight_eq_div_pow]
  omega

/-! ### RegisterRef codes (R71, R72) -/

theorem legalRef_iff {c : RefCode} : legalRef c = true ↔ c.extractLsb' 0 2 ≠ 3 := bne_iff_ne

/-- Of the sixteen codes, the twelve with a view other than 11 are RegisterRefs' codes. -/
theorem refOf_eq_some_iff {c : RefCode} {r : RegisterRef} : refOf c = some r ↔ c = r.code := by
  refine ⟨?_, by rintro rfl; exact refOf_code r⟩
  have codes : ∀ c : RefCode, ∀ q ∈ refOf c, c = q.code := by decide
  exact codes c r

theorem refOf_eq_none_iff {c : RefCode} : refOf c = none ↔ c.extractLsb' 0 2 = 3 := by
  revert c
  decide

theorem exists_eq_code_iff {c : RefCode} : (∃ r : RegisterRef, c = r.code) ↔ legalRef c = true := by
  simp_rw [← refOf_eq_some_iff, ← Option.isSome_iff_exists, Option.isSome_iff_ne_none, legalRef_iff,
    ne_eq, refOf_eq_none_iff]

/-! ### The decoder is the encoder's inverse (R74) -/

theorem decodeSrcDst_eq_ok_iff {mk : RegisterRef → RegisterRef → Instr} {i : Instr} :
    decodeSrcDst mk w = .ok i ↔
      ∃ s d, srcField w = s.code ∧ dstField w = d.code ∧ mk s d = i := by
  simp_rw [← refOf_eq_some_iff]
  unfold decodeSrcDst
  split <;> simp_all

theorem decodeOne_eq_ok_iff {mk : RegisterRef → Instr} {used unused : RefCode} {i : Instr} :
    decodeOne mk used unused = .ok i ↔ ∃ r, used = r.code ∧ unused = 0 ∧ mk r = i := by
  simp_rw [← refOf_eq_some_iff]
  unfold decodeOne
  split
  · simp_all
  · split <;> simp_all

theorem decode_encode (i : Instr) : decode (encode i) = .ok i := by
  cases i <;> simp [decode, encode, decodeSrcDst, decodeOne]

/-- A word decodes to the instruction whose word it is, and to no other. -/
theorem decode_eq_ok_iff {i : Instr} : decode w = .ok i ↔ w = encode i := by
  refine ⟨fun h => ?_, by rintro rfl; exact decode_encode i⟩
  unfold decode at h
  split_ifs at h with rsv mov xchg push pop
  all_goals rw [ne_eq, not_not] at rsv
  · obtain ⟨s, d, src, dst, rfl⟩ := decodeSrcDst_eq_ok_iff.mp h
    exact eq_encodeWord_iff.mpr ⟨rsv, mov, src, dst⟩
  · obtain ⟨s, d, src, dst, rfl⟩ := decodeSrcDst_eq_ok_iff.mp h
    exact eq_encodeWord_iff.mpr ⟨rsv, xchg, src, dst⟩
  · obtain ⟨s, src, dst, rfl⟩ := decodeOne_eq_ok_iff.mp h
    exact eq_encodeWord_iff.mpr ⟨rsv, push, src, dst⟩
  · obtain ⟨d, dst, src, rfl⟩ := decodeOne_eq_ok_iff.mp h
    exact eq_encodeWord_iff.mpr ⟨rsv, pop, src, dst⟩

/-! ### Which words are a row's, field by field (R75, R79) -/

theorem decodes_mov_iff :
    (∃ s d, decode w = .ok (.mov s d)) ↔
      rsvField w = 0 ∧ opField w = 1 ∧ legalRef (srcField w) = true ∧ legalRef (dstField w) = true := by
  simp only [decode_eq_ok_iff, encode, eq_encodeWord_iff, exists_and_left, exists_and_right,
    exists_eq_code_iff]

theorem decodes_xchg_iff :
    (∃ s d, decode w = .ok (.xchg s d)) ↔
      rsvField w = 0 ∧ opField w = 2 ∧ legalRef (srcField w) = true ∧ legalRef (dstField w) = true := by
  simp only [decode_eq_ok_iff, encode, eq_encodeWord_iff, exists_and_left, exists_and_right,
    exists_eq_code_iff]

theorem decodes_push_iff :
    (∃ s, decode w = .ok (.push s)) ↔
      rsvField w = 0 ∧ opField w = 3 ∧ legalRef (srcField w) = true ∧ dstField w = 0 := by
  simp only [decode_eq_ok_iff, encode, eq_encodeWord_iff, exists_and_left, exists_and_right,
    exists_eq_code_iff]

theorem decodes_pop_iff :
    (∃ d, decode w = .ok (.pop d)) ↔
      rsvField w = 0 ∧ opField w = 4 ∧ srcField w = 0 ∧ legalRef (dstField w) = true := by
  simp only [decode_eq_ok_iff, encode, eq_encodeWord_iff, exists_and_left, exists_eq_code_iff]

/-- A word that decodes is a word of one of the four instructions. -/
theorem exists_decode_iff :
    (∃ i, decode w = .ok i) ↔
      (∃ s d, decode w = .ok (.mov s d)) ∨ (∃ s d, decode w = .ok (.xchg s d)) ∨
        (∃ s, decode w = .ok (.push s)) ∨ ∃ d, decode w = .ok (.pop d) := by
  constructor
  · rintro ⟨i, h⟩
    cases i with
    | mov s d => exact .inl ⟨s, d, h⟩
    | xchg s d => exact .inr (.inl ⟨s, d, h⟩)
    | push s => exact .inr (.inr (.inl ⟨s, h⟩))
    | pop d => exact .inr (.inr (.inr ⟨d, h⟩))
  · rintro (⟨s, d, h⟩ | ⟨s, d, h⟩ | ⟨s, h⟩ | ⟨d, h⟩) <;> exact ⟨_, h⟩

/-! ### The opcode map (R79) -/

theorem decodes_mov_iff_match :
    (∃ s d, decode w = .ok (.mov s d)) ↔
      w &&& 0xFF00 = 0x1000 ∧ w.extractLsb' 4 2 ≠ 3 ∧ w.extractLsb' 0 2 ≠ 3 := by
  rw [decodes_mov_iff, legalRef_iff, legalRef_iff, srcField_view, dstField_view,
    show (0x1000 : Word) = encodeWord 1 0 0 from rfl, and_FF00_eq_iff, and_assoc]

theorem decodes_xchg_iff_match :
    (∃ s d, decode w = .ok (.xchg s d)) ↔
      w &&& 0xFF00 = 0x2000 ∧ w.extractLsb' 4 2 ≠ 3 ∧ w.extractLsb' 0 2 ≠ 3 := by
  rw [decodes_xchg_iff, legalRef_iff, legalRef_iff, srcField_view, dstField_view,
    show (0x2000 : Word) = encodeWord 2 0 0 from rfl, and_FF00_eq_iff, and_assoc]

theorem decodes_push_iff_match :
    (∃ s, decode w = .ok (.push s)) ↔ w &&& 0xFF0F = 0x3000 ∧ w.extractLsb' 4 2 ≠ 3 := by
  rw [decodes_push_iff, legalRef_iff, srcField_view, show (0x3000 : Word) = encodeWord 3 0 0 from rfl,
    and_FF0F_eq_iff, and_assoc, and_assoc, and_comm (a := dstField w = 0)]

theorem decodes_pop_iff_match :
    (∃ d, decode w = .ok (.pop d)) ↔ w &&& 0xFFF0 = 0x4000 ∧ w.extractLsb' 0 2 ≠ 3 := by
  rw [decodes_pop_iff, legalRef_iff, dstField_view, show (0x4000 : Word) = encodeWord 4 0 0 from rfl,
    and_FFF0_eq_iff, and_assoc, and_assoc]

/-- `OpcodeRow.encodes` in the words of R79. -/
theorem encodes_iff {row : OpcodeRow} :
    row.encodes w = true ↔ w &&& row.mask = row.pattern ∧
      (row.usesSrc = true → w.extractLsb' 4 2 ≠ 3) ∧ (row.usesDst = true → w.extractLsb' 0 2 ≠ 3) := by
  rw [← srcField_view, ← dstField_view, ← legalRef_iff, ← legalRef_iff]
  simp [OpcodeRow.encodes, srcField, dstField, and_assoc, imp_iff_not_or]

theorem decodes_of_legalWord (h : legalWord w = true) : ∃ i, decode w = .ok i := by
  rw [exists_decode_iff, decodes_mov_iff_match, decodes_xchg_iff_match, decodes_push_iff_match,
    decodes_pop_iff_match]
  simpa [legalWord, opcodeTable, encodes_iff, rowMov, rowXchg, rowPush, rowPop] using h

theorem encodes_encode_iff (i : Instr) :
    ∀ row ∈ opcodeTable, row.encodes (encode i) = true ↔ row = i.row := by
  cases i with
  | mov s d => exact Laws.EncodesRow.mov s d rfl
  | xchg s d => exact Laws.EncodesRow.xchg s d rfl
  | push s => exact Laws.EncodesRow.push s rfl
  | pop d => exact Laws.EncodesRow.pop d rfl

/-- Settles O3: each row's mask, match and condition are conditions on the fields, and so is decoding to
the row's instruction; a decodable word is its instruction's encoding, which one row encodes. -/
theorem wordDecodesIffItMatchesItsRow : Obligations.WordDecodesIffItMatchesItsRow := by
  unfold Obligations.WordDecodesIffItMatchesItsRow
  refine ⟨fun w => ⟨decodes_mov_iff_match, decodes_xchg_iff_match, decodes_push_iff_match,
    decodes_pop_iff_match⟩, fun w i h => ?_, fun w => decodes_of_legalWord⟩
  obtain rfl := decode_eq_ok_iff.mp h
  exact encodes_encode_iff i

/-! ## Illegal words and requests (30_encoding.md R77) -/

/-- R77's list of what makes a word illegal. The four opcodes are distinct, so each settles which fields
the word uses. -/
theorem not_decodes_iff :
    (¬ ∃ i, decode w = .ok i) ↔
      (opField w ≠ 1 ∧ opField w ≠ 2 ∧ opField w ≠ 3 ∧ opField w ≠ 4) ∨ rsvField w ≠ 0 ∨
      (opField w ≠ 4 ∧ (srcField w).extractLsb' 0 2 = 3) ∨
      (opField w ≠ 3 ∧ (dstField w).extractLsb' 0 2 = 3) ∨
      (opField w = 3 ∧ dstField w ≠ 0) ∨ (opField w = 4 ∧ srcField w ≠ 0) := by
  rw [exists_decode_iff, decodes_mov_iff, decodes_xchg_iff, decodes_push_iff, decodes_pop_iff]
  simp only [legalRef_iff]
  by_cases mov : opField w = 1
  · grind
  by_cases xchg : opField w = 2
  · grind
  by_cases push : opField w = 3
  · grind
  by_cases pop : opField w = 4
  · grind
  · grind

/-- The edge that accepts a request (30_encoding.md R65). -/
theorem step_of_accepted {s : State} {inp : Inputs} {rest : List Inputs} (inputs : s.inputs = inp :: rest)
    (rst : inp.rst = false) (valid : inp.reqValid = true) : step s = accept inp (s.withInputs rest) := by
  simp [step, nextEdge, edge, inputs, rst, valid]

theorem execRequest_of_not_decodes (h : ¬ ∃ i, decode w = .ok i) (s : State) :
    execRequest w s = raise .illegalEncoding s := by
  unfold execRequest
  split
  next i decoded => exact absurd ⟨i, decoded⟩ h
  next => rfl

/-- An EXEC of an illegal word, a READ or WRITE with view code 11, and the reserved kind. -/
theorem accept_eq_raise_of_illegal {inp : Inputs}
    (h : (inp.reqKind = 0 ∧ ¬ ∃ i, decode inp.reqInstr = .ok i) ∨
      ((inp.reqKind = 1 ∨ inp.reqKind = 2) ∧ inp.reqRef.extractLsb' 0 2 = 3) ∨ inp.reqKind = 3)
    (s : State) : accept inp s = raise .illegalEncoding s := by
  rw [← refOf_eq_none_iff] at h
  obtain ⟨exec, illegal⟩ | ⟨read | write, illegal⟩ | reserved := h
  · simp [accept, exec, execRequest_of_not_decodes illegal]
  · simp [accept, read, readRequest, illegal]
  · simp [accept, write, writeRequest, illegal]
  · simp [accept, reserved]

/-! ### Counting the legal words (R77) -/

/-- The instructions in the order of their rows, each with every choice of operands. -/
def allInstrs : List Instr :=
  (allRefs ×ˢ allRefs).map (fun p => .mov p.1 p.2) ++
    ((allRefs ×ˢ allRefs).map (fun p => .xchg p.1 p.2) ++ (allRefs.map .push ++ allRefs.map .pop))

theorem mem_allRefs (r : RegisterRef) : r ∈ allRefs := by
  obtain ⟨L, u⟩ := r
  cases L <;> cases u <;> decide

theorem nodup_allRefs : allRefs.Nodup := by decide

theorem mem_allInstrs (i : Instr) : i ∈ allInstrs := by
  cases i <;> simp [allInstrs, mem_allRefs]

theorem nodup_allInstrs : allInstrs.Nodup := by
  have pairs : (allRefs ×ˢ allRefs).Nodup := nodup_allRefs.product nodup_allRefs
  have movs := pairs.map (f := fun p => Instr.mov p.1 p.2) (by rintro ⟨⟩ ⟨⟩ h; cases h; rfl)
  have xchgs := pairs.map (f := fun p => Instr.xchg p.1 p.2) (by rintro ⟨⟩ ⟨⟩ h; cases h; rfl)
  have pushes := nodup_allRefs.map (f := Instr.push) (by rintro _ _ h; cases h; rfl)
  have pops := nodup_allRefs.map (f := Instr.pop) (by rintro _ _ h; cases h; rfl)
  refine movs.append (xchgs.append (pushes.append pops ?_) ?_) ?_ <;>
    simp +contextual [List.disjoint_left, eq_comm]

theorem length_allRefs : allRefs.length = 12 := rfl

theorem length_allInstrs : allInstrs.length = 312 := by
  simp [allInstrs, List.length_product, length_allRefs]

theorem encode_injective : Function.Injective encode := fun i j h => by
  have decoded : decode (encode i) = decode (encode j) := congrArg decode h
  rw [decode_encode, decode_encode] at decoded
  exact Except.ok.inj decoded

/-- The legal words are the encodings of all instructions. -/
theorem mem_map_encode_allInstrs : w ∈ allInstrs.map encode ↔ ∃ i, decode w = .ok i := by
  simp [decode_eq_ok_iff, mem_allInstrs, eq_comm (a := w)]

/-- Settles O4: the illegal words are those that meet no row's fields, an illegal request goes to `raise`,
and the legal words are the encodings of the 144 + 144 + 12 + 12 instructions. -/
theorem illegalRequestRaisesIllegalEncoding : Obligations.IllegalRequestRaisesIllegalEncoding := by
  unfold Obligations.IllegalRequestRaisesIllegalEncoding
  refine ⟨fun w => not_decodes_iff, fun s inp rest inputs rst valid illegal => ?_,
    allInstrs.map encode, nodup_allInstrs.map encode_injective, ?_, fun w => mem_map_encode_allInstrs⟩
  · rw [step_of_accepted inputs rst valid, accept_eq_raise_of_illegal illegal]
    rfl
  · rw [List.length_map, length_allInstrs]

/-! ## Register names (30_encoding.md R81) -/

theorem refNamed_refName (r : RegisterRef) : refNamed (refName r) = some r := by
  obtain ⟨L, u⟩ := r
  cases L <;> cases u <;> rfl

/-- Settles O6: names and codes are read back by `refNamed` and `refOf`; the table's rows and the four
illegal codes are closed facts. -/
theorem registerNamesAndCodes : Obligations.RegisterNamesAndCodes := by
  unfold Obligations.RegisterNamesAndCodes
  exact ⟨fun r => ⟨refNamed_refName r, refOf_code r⟩, by decide, by decide⟩

end Sys2Proof

/-! ## Host requests (40_register_access.md R90 to R93)

What a step that accepts a READ or a WRITE answers is said once for each, with the RegisterRef the request
carries; the statements below name that RegisterRef by its letter and view codes. -/

namespace Sys2Proof

open Machine

section AcceptedRequest

variable {s : State} {inp : Inputs} {rest : List Inputs} (inputs : s.inputs = inp :: rest)
  (rst : inp.rst = false) (valid : inp.reqValid = true)

include inputs rst valid

/-- READ writes nothing but the response (R90). -/
theorem step_read (kind : inp.reqKind = 1) {r : RegisterRef} (ref : inp.reqRef = r.code) :
    step s = .next ((s.withInputs rest).withRsp (okResponse (viewRead r s.cells))) := by
  rw [step_of_accepted inputs rst valid]
  simp [accept, kind, readRequest, ref, complete, readView]

/-- WRITE changes the cells through its view, and answers OK with data 0 (R92). -/
theorem step_write (kind : inp.reqKind = 2) {r : RegisterRef} (ref : inp.reqRef = r.code) :
    step s = .next ((writeView r inp.reqWdata (s.withInputs rest)).withRsp (okResponse 0)) := by
  rw [step_of_accepted inputs rst valid]
  simp [accept, kind, writeRequest, ref, complete]

/-- READ and WRITE with view code 11 end before any read or write (R90, R92). -/
theorem step_read_or_write_of_reservedView (kind : inp.reqKind = 1 ∨ inp.reqKind = 2)
    (reserved : inp.reqRef.extractLsb' 0 2 = 3) :
    step s = .next ((s.withInputs rest).withRsp (errorResponse .illegalEncoding)) := by
  rw [step_of_accepted inputs rst valid, accept_eq_raise_of_illegal (.inr (.inl ⟨kind, reserved⟩)), raise]

theorem step_exec_encode (kind : inp.reqKind = 0) {i : Instr} (word : inp.reqInstr = encode i) :
    step s = exec i (s.withInputs rest) := by
  rw [step_of_accepted inputs rst valid]
  simp [accept, kind, execRequest, word, decode_encode]

/-- Whatever its code, a READ changes nothing but the response (R91). -/
theorem step_read_changes_only_rsp (kind : inp.reqKind = 1) :
    ∃ p, step s = .next ((s.withInputs rest).withRsp p) := by
  cases ref : refOf inp.reqRef with
  | some r => exact ⟨_, step_read inputs rst valid kind (refOf_eq_some_iff.mp ref)⟩
  | none =>
    exact ⟨_, step_read_or_write_of_reservedView inputs rst valid (.inl kind) (refOf_eq_none_iff.mp ref)⟩

end AcceptedRequest

/-! ### What is read and written, in bits -/

theorem readBits_lowByte (w : Word) : readBits .lowByte w = w &&& 0xFF := zext_lowByteOf w

/-- The high byte shifted down is its own low byte: nothing stands above bit 7. -/
theorem readBits_highByte (w : Word) : readBits .highByte w = (w >>> 8) &&& 0xFF := by
  rw [← zext_highByteOf, ← zext_lowByteOf, lowByteOf_setWidth, readBits]

/-- Only the cell of the view's letter changes (R92). -/
theorem cellOf_viewWrite (r : RegisterRef) (M : Letter) (v : Word) (c : Cells) :
    cellOf M (viewWrite r v c) = if M = r.letter then writeBits r.view v (cellOf M c) else cellOf M c := by
  rw [viewWrite_eq_setCell, cellOf_setCell]
  split
  next same => rw [same]
  next => rfl

/-- Settles O9: `step_read` at each view, whose bits `readBits` gives; view code 11 names none. -/
theorem readReturnsTheView : Obligations.ReadReturnsTheView := by
  unfold Obligations.ReadReturnsTheView
  intro s inp rest inputs rst valid kind
  have reads (r : RegisterRef) (ref : inp.reqRef = r.code) :
      step s = .next ((s.withInputs rest).withRsp
        (okResponse (readBits r.view (cellOf r.letter s.cells)))) := by
    rw [step_read inputs rst valid kind ref, viewRead_eq_readBits]
  refine ⟨fun L => ⟨fun word => reads ⟨L, .word⟩ word, fun low => ?_, fun high => ?_⟩,
    step_read_or_write_of_reservedView inputs rst valid (.inl kind)⟩
  · rw [← readBits_lowByte]
    exact reads ⟨L, .lowByte⟩ low
  · rw [← readBits_highByte]
    exact reads ⟨L, .highByte⟩ high

/-- Settles O10, by induction on the READs: each leaves the state as it was but for the response, so the
READ after them is `step_read` in the first state's cells. -/
theorem readsHaveNoEffect : Obligations.ReadsHaveNoEffect := by
  unfold Obligations.ReadsHaveNoEffect
  intro reads
  induction reads with
  | nil =>
    intro s r rest _ inputs
    have last := step_read (r := r) inputs rfl rfl rfl rfl
    exact ⟨_, run_succ_of_step last, rfl, rfl, rfl, rfl, rfl⟩
  | cons inp reads ih =>
    intro s r rest areReads inputs
    obtain ⟨⟨rst, valid, kind⟩, areReads⟩ := List.forall_mem_cons.mp areReads
    obtain ⟨p, first⟩ := step_read_changes_only_rsp inputs rst valid kind
    obtain ⟨t, run, effects⟩ :=
      ih ((s.withInputs (reads ++ readInputs r :: rest)).withRsp p) r rest areReads rfl
    exact ⟨t, (run_succ_of_step first).trans run, effects⟩

/-- Settles O11: `step_write` at each view; the cells after it are `cellOf_viewWrite`'s, with the kept half
of the letter's cell as `writeBits` gives it. -/
theorem writeStoresIntoTheView : Obligations.WriteStoresIntoTheView := by
  unfold Obligations.WriteStoresIntoTheView
  intro s inp rest inputs rst valid kind
  refine ⟨fun L => ⟨fun word => ?_, fun low => ?_, fun high => ?_⟩,
    step_read_or_write_of_reservedView inputs rst valid (.inr kind)⟩
  · exact ⟨_, step_write (r := ⟨L, .word⟩) inputs rst valid kind word,
      fun M => cellOf_viewWrite ⟨L, .word⟩ M inp.reqWdata s.cells⟩
  · refine ⟨_, step_write (r := ⟨L, .lowByte⟩) inputs rst valid kind low, fun M => ?_⟩
    have written := cellOf_viewWrite ⟨L, .lowByte⟩ M inp.reqWdata s.cells
    rwa [writeBits_lowByte] at written
  · refine ⟨_, step_write (r := ⟨L, .highByte⟩) inputs rst valid kind high, fun M => ?_⟩
    have written := cellOf_viewWrite ⟨L, .highByte⟩ M inp.reqWdata s.cells
    rwa [writeBits_highByte] at written

/-! ### Integer writes (R93) -/

theorem wdataOfInt_toNat (n : Int) : ((wdataOfInt n).toNat : Int) = n % 2 ^ 16 := by
  rw [wdataOfInt, BitVec.toNat_ofInt]
  omega

/-- 2^8 divides 2^16, so the low byte of the port's value is the integer's own residue. -/
theorem wdataOfInt_and_0xFF_toNat (n : Int) : ((wdataOfInt n &&& 0xFF).toNat : Int) = n % 2 ^ 8 := by
  have port := wdataOfInt_toNat n
  rw [← zext_lowByteOf, BitVec.toNat_setWidth, lowByteOf_toNat]
  omega

/-- Settles O12: a byte view reads back the low byte of what was written. -/
theorem integerWriteReducesTheInteger : Obligations.IntegerWriteReducesTheInteger := by
  unfold Obligations.IntegerWriteReducesTheInteger
  intro n L c
  simp only [viewRead_viewWrite_same_letter, readBits_lowByte_writeBits_lowByte,
    readBits_highByte_writeBits_highByte]
  exact ⟨wdataOfInt_toNat n, wdataOfInt_toNat n, wdataOfInt_and_0xFF_toNat n, wdataOfInt_and_0xFF_toNat n⟩

/-! ## View outputs and stack ports (R94 to R96) -/

/-- Zero-extension keeps the number a byte view shows. -/
theorem viewRead_toNat (r : RegisterRef) (s : State) : (viewRead r s.cells).toNat = viewPort r s := by
  obtain ⟨L, u⟩ := r
  have zext (b : Byte) : (b.setWidth 16).toNat = b.toNat := BitVec.toNat_setWidth_of_le (by decide)
  cases u with
  | word => rfl
  | lowByte => exact zext _
  | highByte => exact zext _

/-- Settles O13: `step_read` answers OK with the view, which is what the view output shows. -/
theorem viewOutputsAgreeWithRead : Obligations.ViewOutputsAgreeWithRead := by
  unfold Obligations.ViewOutputsAgreeWithRead
  intro s r rest
  have read := step_read (s := s.withInputs (readInputs r :: rest)) (r := r) rfl rfl rfl rfl rfl
  exact ⟨_, read, rfl, viewRead_toNat r s⟩

theorem peekData_of_lt {s : State} {i : Nat} (h : i < s.stack.length) : peekData i s = s.stack[i] := by
  simp [peekData, h]

theorem peekData_of_le {s : State} {i : Nat} (h : s.stack.length ≤ i) : peekData i s = 0 := by
  simp [peekData, h]

/-- The entries below the depth, in order, are "the full Stack contents" (R96). -/
theorem map_peekData_range (s : State) : (List.range (stackDepthPort s)).map (peekData · s) = s.stack := by
  refine List.ext_getElem (by simp [stackDepthPort]) fun i _ below => ?_
  simp [peekData_of_lt below]

/-- Settles O14: `peekData` on each side of the depth. -/
theorem stackPortsShowTheStack : Obligations.StackPortsShowTheStack := by
  unfold Obligations.StackPortsShowTheStack
  intro s
  exact ⟨rfl, fun i below => ⟨decide_eq_true below, peekData_of_lt below⟩,
    fun i past => ⟨decide_eq_false past.not_gt, peekData_of_le past⟩, map_peekData_range s⟩

/-! ## The source's operations as requests (30_encoding.md, its first table) -/

/-- Settles O41: each operation's request is accepted, and answered as `step_read`, `step_write` and
`step_exec_encode` say. -/
theorem sourceOperationsAreRealised : Obligations.SourceOperationsAreRealised := by
  unfold Obligations.SourceOperationsAreRealised
  intro s rest
  have first (op : SourceOp) :
      ({ s with inputs := inputsOf op :: rest } : State).inputs = inputsOf op :: rest := rfl
  exact ⟨fun r => step_read (first (.read r)) rfl rfl rfl rfl,
    fun r n => step_write (first (.write r n)) rfl rfl rfl rfl,
    fun i => step_exec_encode (first (.execute i)) rfl rfl rfl rfl⟩

end Sys2Proof

/-! ## Compatible operands (41_transfer.md R110 to R112)

The views that share no bit of a cell are the two bytes, so what holds of disjoint views is two cases. Two
compatible RegisterRefs are one RegisterRef or share no bit, and MOV and XCHG need no third case. -/

namespace Sys2Proof.Machine

variable {r q src dst : RegisterRef} {u u' : View}

/-! ### Compatibility is a matter of the views -/

theorem widthClass_eq_iff : widthClass u = widthClass u' ↔ (u = .word ↔ u' = .word) := by
  cases u <;> cases u' <;> decide

theorem compatible_iff_widthClass : compatible r q = true ↔ widthClass r.view = widthClass q.view :=
  beq_iff_eq

theorem compatible_symm (h : compatible r q = true) : compatible q r = true :=
  compatible_iff_widthClass.mpr (compatible_iff_widthClass.mp h).symm

/-- Settles O17: the classes agree as the views are both Word or both not, and the letters are not read;
the pairs are counted. -/
theorem compatibilityReadsOnlyTheViews : Obligations.CompatibilityReadsOnlyTheViews := by
  unfold Obligations.CompatibilityReadsOnlyTheViews
  exact ⟨fun s d => compatible_iff_widthClass.trans widthClass_eq_iff, fun s d L M => rfl,
    rfl, rfl, rfl, rfl, rfl⟩

/-! ### Views that share no bit -/

theorem viewMask_disjoint_iff :
    viewMask u &&& viewMask u' = 0 ↔
      (u = .lowByte ∧ u' = .highByte) ∨ (u = .highByte ∧ u' = .lowByte) := by
  cases u <;> cases u' <;> decide

theorem view_eq_or_disjoint_of_widthClass_eq (h : widthClass u = widthClass u') :
    u = u' ∨ viewMask u &&& viewMask u' = 0 := by
  revert h
  cases u <;> cases u' <;> decide

theorem readBits_writeBits_of_disjoint (h : viewMask u &&& viewMask u' = 0) (v w : Word) :
    readBits u (writeBits u' v w) = readBits u w := by
  obtain ⟨rfl, rfl⟩ | ⟨rfl, rfl⟩ := viewMask_disjoint_iff.mp h
  · exact readBits_lowByte_writeBits_highByte v w
  · exact readBits_highByte_writeBits_lowByte v w

theorem writeBits_comm_of_disjoint (h : viewMask u &&& viewMask u' = 0) (v v' w : Word) :
    writeBits u v (writeBits u' v' w) = writeBits u' v' (writeBits u v w) := by
  obtain ⟨rfl, rfl⟩ | ⟨rfl, rfl⟩ := viewMask_disjoint_iff.mp h <;> simp [writeBits]

theorem not_sharesBits_iff :
    sharesBits r q = false ↔ (r.letter = q.letter → viewMask r.view &&& viewMask q.view = 0) := by
  simp [sharesBits]

theorem viewRead_viewWrite_of_not_sharesBits (h : sharesBits r q = false) (v : Word) (c : Cells) :
    viewRead r (viewWrite q v c) = viewRead r c := by
  rw [viewRead_eq_readBits, viewRead_eq_readBits, cellOf_viewWrite]
  split
  next same => exact readBits_writeBits_of_disjoint (not_sharesBits_iff.mp h same) v _
  next => rfl

theorem viewWrite_comm_of_not_sharesBits (h : sharesBits r q = false) (v v' : Word) (c : Cells) :
    viewWrite r v (viewWrite q v' c) = viewWrite q v' (viewWrite r v c) := by
  refine cells_ext fun L => ?_
  simp only [cellOf_viewWrite]
  by_cases hr : L = r.letter
  · by_cases hq : L = q.letter
    · simp only [if_pos hr, if_pos hq]
      exact writeBits_comm_of_disjoint (not_sharesBits_iff.mp h (hr.symm.trans hq)) v v' _
    · simp only [if_neg hq]
  · simp only [if_neg hr]

/-- R112: compatible operands are the same RegisterRef or share no bit. -/
theorem eq_or_not_sharesBits_of_compatible (h : compatible r q = true) :
    r = q ∨ sharesBits r q = false := by
  obtain ⟨L, u⟩ := r
  obtain ⟨M, u'⟩ := q
  obtain rfl | disjoint := view_eq_or_disjoint_of_widthClass_eq (compatible_iff_widthClass.mp h)
  · by_cases letters : L = M
    · exact .inl (letters ▸ rfl)
    · exact .inr (not_sharesBits_iff.mpr fun same => absurd same letters)
  · exact .inr (not_sharesBits_iff.mpr fun _ => disjoint)

/-- Settles O18: a shared bit leaves only the first case of `eq_or_not_sharesBits_of_compatible`; a write
through a view that shares none keeps every bit read. -/
theorem compatibleRefsAreEqualOrDisjoint : Obligations.CompatibleRefsAreEqualOrDisjoint := by
  unfold Obligations.CompatibleRefsAreEqualOrDisjoint
  intro s d
  refine ⟨fun comp shares => ?_, viewRead_viewWrite_of_not_sharesBits⟩
  exact (eq_or_not_sharesBits_of_compatible comp).resolve_right (by simp [shares])

/-! ## MOV (41_transfer.md R114) -/

/-- A byte view shows nothing above bit 7 (40_register_access.md R90). -/
theorem readBits_and_0xFF (h : u ≠ .word) (w : Word) : readBits u w &&& 0xFF = readBits u w := by
  rw [← zext_lowByteOf]
  cases u with
  | word => exact absurd rfl h
  | lowByte => rw [readBits, lowByteOf_setWidth]
  | highByte => rw [readBits, lowByteOf_setWidth]

/-- What a view shows passes whole through any view of its width: a byte write cuts its value to 8 bits,
and a byte view shows no more. -/
theorem readBits_writeBits_readBits (h : widthClass u = widthClass u') (w w' : Word) :
    readBits u' (writeBits u' (readBits u w) w') = readBits u w := by
  have isWord : u = .word ↔ u' = .word := widthClass_eq_iff.mp h
  cases u' with
  | word => rfl
  | lowByte =>
    rw [readBits_lowByte_writeBits_lowByte, readBits_and_0xFF (by simp [isWord])]
  | highByte =>
    rw [readBits_highByte_writeBits_highByte, readBits_and_0xFF (by simp [isWord])]

theorem writeBits_readBits_self (u : View) (w : Word) : writeBits u (readBits u w) w = w := by
  cases u <;> simp [readBits, writeBits]

theorem viewRead_viewWrite_of_compatible (h : compatible src dst = true) (c e : Cells) :
    viewRead dst (viewWrite dst (viewRead src c) e) = viewRead src c := by
  rw [viewRead_eq_readBits dst, cellOf_viewWrite, if_pos rfl, viewRead_eq_readBits src]
  exact readBits_writeBits_readBits (compatible_iff_widthClass.mp h) _ _

@[simp] theorem viewWrite_viewRead_self (r : RegisterRef) (c : Cells) :
    viewWrite r (viewRead r c) c = c := by
  rw [viewWrite_eq_setCell, viewRead_eq_readBits, writeBits_readBits_self, setCell_cellOf]

/-- A copy to a compatible view leaves its source as it was, whether the views meet or not. -/
theorem viewRead_viewWrite_viewRead (h : compatible src dst = true) (c : Cells) :
    viewRead src (viewWrite dst (viewRead src c) c) = viewRead src c := by
  obtain rfl | disjoint := eq_or_not_sharesBits_of_compatible h
  · rw [viewWrite_viewRead_self]
  · exact viewRead_viewWrite_of_not_sharesBits disjoint _ c

theorem exec_mov_of_compatible (h : compatible src dst = true) (s : State) :
    exec (.mov src dst) s = complete 0 (writeView dst (readView src s) s) :=
  if_pos h

theorem exec_mov_of_not_compatible (h : compatible src dst = false) (s : State) :
    exec (.mov src dst) s = raise (sizeMismatchOf src dst) s :=
  if_neg (by simp [h])

/-- Settles O19: `exec_mov_of_compatible` and `exec_mov_of_not_compatible` are the two answers; what the
views show after the write is said of any compatible pair. -/
theorem movCopiesOrRaisesSizeMismatch : Obligations.MovCopiesOrRaisesSizeMismatch := by
  unfold Obligations.MovCopiesOrRaisesSizeMismatch
  intro src dst s
  refine ⟨rfl, fun comp => ⟨exec_mov_of_compatible comp s, viewRead_viewWrite_of_compatible comp _ _,
    viewRead_viewWrite_viewRead comp _, ?self⟩, fun incomp => exec_mov_of_not_compatible incomp s⟩
  case self =>
    rintro rfl
    exact viewWrite_viewRead_self src s.cells

/-! ## XCHG (41_transfer.md R116, R117) -/

/-- The two writes commute: they are one write, or they meet in no bit (R117). -/
theorem viewSwap_comm (h : compatible src dst = true) (c : Cells) :
    viewSwap src dst c = viewSwap dst src c := by
  obtain rfl | disjoint := eq_or_not_sharesBits_of_compatible h
  · rfl
  · exact (viewWrite_comm_of_not_sharesBits disjoint _ _ c).symm

theorem viewRead_dst_viewSwap (h : compatible src dst = true) (c : Cells) :
    viewRead dst (viewSwap src dst c) = viewRead src c :=
  viewRead_viewWrite_of_compatible h c _

theorem viewRead_src_viewSwap (h : compatible src dst = true) (c : Cells) :
    viewRead src (viewSwap src dst c) = viewRead dst c := by
  rw [viewSwap_comm h]
  exact viewRead_dst_viewSwap (compatible_symm h) c

@[simp] theorem viewSwap_self (r : RegisterRef) (c : Cells) : viewSwap r r c = c := by
  simp [viewSwap]

theorem exec_xchg_of_compatible (h : compatible src dst = true) (s : State) :
    exec (.xchg src dst) s = complete 0 (s.withCells (viewSwap src dst s.cells)) :=
  if_pos h

theorem exec_xchg_of_not_compatible (h : compatible src dst = false) (s : State) :
    exec (.xchg src dst) s = raise (sizeMismatchOf src dst) s :=
  if_neg (by simp [h])

/-- R116: XCHG is symmetric. -/
theorem exec_xchg_comm (h : compatible src dst = true) (s : State) :
    exec (.xchg dst src) s = exec (.xchg src dst) s := by
  rw [exec_xchg_of_compatible h, exec_xchg_of_compatible (compatible_symm h), viewSwap_comm h]

/-- Settles O20: the cells after it are the swap's, the same for both orders of the operands. -/
theorem xchgSwapsOrRaisesSizeMismatch : Obligations.XchgSwapsOrRaisesSizeMismatch := by
  unfold Obligations.XchgSwapsOrRaisesSizeMismatch
  intro src dst s
  refine ⟨rfl, fun comp => ?swaps, fun incomp => exec_xchg_of_not_compatible incomp s⟩
  case swaps =>
    have swapped := exec_xchg_of_compatible comp s
    refine ⟨viewSwap src dst s.cells, rfl, swapped, (exec_xchg_comm comp s).trans swapped,
      viewRead_src_viewSwap comp _, viewRead_dst_viewSwap comp _, ?_⟩
    rintro rfl
    exact viewSwap_self src s.cells

/-- Settles O21: the two orders are `viewSwap` of the operands in either order. -/
theorem xchgWritesCommute : Obligations.XchgWritesCommute := by
  unfold Obligations.XchgWritesCommute
  exact fun s d c comp => ⟨viewSwap_comm comp c, rfl⟩

end Sys2Proof.Machine

/-! ## The stack instructions (42_stack.md R130 to R135)

PUSH and POP have three answers each. What a step does to the stack is said once for a PUSH that succeeds,
once for a POP that succeeds and once for everything else but reset; steps and runs need no more. -/

namespace Sys2Proof.Machine

variable {r src dst : RegisterRef} {v : Word} {st vs ws : List Word} {i : Instr} {s t : State}

/-! ### The answers of PUSH and POP (R130, R132) -/

theorem viewRead_of_word (h : r.view = .word) (c : Cells) : viewRead r c = cellOf r.letter c := by
  rw [viewRead_eq_readBits, h, readBits]

/-- A write through a Word view stores all 16 bits (R132). -/
theorem cellOf_viewWrite_of_word (h : r.view = .word) (M : Letter) (v : Word) (c : Cells) :
    cellOf M (viewWrite r v c) = if M = r.letter then v else cellOf M c := by
  rw [cellOf_viewWrite, h, writeBits]

theorem viewRead_viewWrite_of_word (h : r.view = .word) (v : Word) (c : Cells) :
    viewRead r (viewWrite r v c) = v := by
  rw [viewRead_of_word h, cellOf_viewWrite_of_word h, if_pos rfl]

theorem exec_push_of_full (h : stackFull s = true) (src : RegisterRef) :
    exec (.push src) s = raise .stackOverflow s :=
  if_pos h

theorem exec_push_of_byte (notFull : stackFull s = false) (byte : src.view ≠ .word) :
    exec (.push src) s = raise (.invalidOperandWidth src) s := by
  simp [exec, execPush, notFull, byte]

theorem exec_push_of_word (notFull : stackFull s = false) (word : src.view = .word) :
    exec (.push src) s = complete 0 (pushStack (cellOf src.letter s.cells) s) := by
  simp [exec, execPush, notFull, word, readView, viewRead_of_word]

theorem exec_pop_of_empty (h : s.stack = []) (dst : RegisterRef) :
    exec (.pop dst) s = raise .stackUnderflow s := by
  simp [exec, execPop, h]

theorem exec_pop_of_byte (top : s.stack = v :: st) (byte : dst.view ≠ .word) :
    exec (.pop dst) s = raise (.invalidOperandWidth dst) s := by
  simp [exec, execPop, top, byte]

theorem exec_pop_of_word (top : s.stack = v :: st) (word : dst.view = .word) :
    exec (.pop dst) s = complete 0 (writeView dst v (s.withStack st)) := by
  simp [exec, execPop, top, word]

/-- Settles O24: the three answers of PUSH, with R130's test of the depth as `stackFull_iff`. -/
theorem pushPushesOrRaises : Obligations.PushPushesOrRaises := by
  unfold Obligations.PushPushesOrRaises
  intro src s
  rw [ne_eq, ← stackFull_iff, Bool.not_eq_true]
  exact ⟨rfl, fun full => exec_push_of_full full src, exec_push_of_byte, exec_push_of_word⟩

/-- Settles O25: the three answers of POP; the cells after the last are the write's. -/
theorem popPopsOrRaises : Obligations.PopPopsOrRaises := by
  unfold Obligations.PopPopsOrRaises
  intro dst s
  refine ⟨rfl, fun empty => exec_pop_of_empty empty dst, fun v rest => exec_pop_of_byte,
    fun v rest top word => ?_⟩
  exact ⟨viewWrite dst v s.cells, exec_pop_of_word top word,
    fun M => cellOf_viewWrite_of_word word M v s.cells⟩

/-! ### The stack after an instruction -/

theorem errorResponse_status_ne_ok (e : ExecError) : (errorResponse e).status ≠ .ok := by
  cases e <;> exact Status.noConfusion

/-- A PUSH that succeeds puts what its operand shows on the stack. -/
theorem stack_of_exec_push_ok (h : exec (.push src) s = .next t) (ok : t.rsp.status = .ok) :
    t.stack = viewRead src s.cells :: s.stack := by
  obtain ⟨_, rfl⟩ | ⟨_, _, rfl⟩ | ⟨_, _, rfl⟩ := execPush_cases h
  · exact absurd ok (errorResponse_status_ne_ok _)
  · exact absurd ok (errorResponse_status_ne_ok _)
  · rfl

/-- A POP that succeeds takes off the stack what its operand shows after it. -/
theorem stack_of_exec_pop_ok (h : exec (.pop dst) s = .next t) (ok : t.rsp.status = .ok) :
    s.stack = viewRead dst t.cells :: t.stack := by
  obtain ⟨_, rfl⟩ | ⟨_, _, _, _, rfl⟩ | ⟨v, rest, top, word, rfl⟩ := execPop_cases h
  · exact absurd ok (errorResponse_status_ne_ok _)
  · exact absurd ok (errorResponse_status_ne_ok _)
  · rw [top]
    exact congrArg (· :: rest) (viewRead_viewWrite_of_word word v s.cells).symm

/-- An instruction that is neither PUSH nor POP keeps the stack, and so does one that fails. -/
theorem stack_of_exec_transfer_or_error (h : exec i s = .next t)
    (keeps : (∀ r, i ≠ .push r ∧ i ≠ .pop r) ∨ t.rsp.status ≠ .ok) : t.stack = s.stack := by
  cases i with
  | mov src dst => obtain ⟨_, rfl⟩ | ⟨_, rfl⟩ := execMov_cases h <;> rfl
  | xchg src dst => obtain ⟨_, rfl⟩ | ⟨_, rfl⟩ := execXchg_cases h <;> rfl
  | push src =>
    have failed : t.rsp.status ≠ .ok := keeps.resolve_left fun other => (other src).1 rfl
    obtain ⟨_, rfl⟩ | ⟨_, _, rfl⟩ | ⟨_, _, rfl⟩ := execPush_cases h
    · rfl
    · rfl
    · exact absurd rfl failed
  | pop dst =>
    have failed : t.rsp.status ≠ .ok := keeps.resolve_left fun other => (other dst).2 rfl
    obtain ⟨_, rfl⟩ | ⟨_, _, _, _, rfl⟩ | ⟨_, _, _, _, rfl⟩ := execPop_cases h
    · rfl
    · rfl
    · exact absurd rfl failed

/-! ### The stack after a step -/

theorem step_of_presents (h : s.presents i) : step s = exec i (s.withInputs s.inputs.tail) := by
  obtain ⟨inp, accepts, kind, decoded⟩ := h
  obtain ⟨rest, inputs, rst, valid⟩ := accepts_iff.mp accepts
  rw [step_of_accepted inputs rst valid, inputs, List.tail_cons]
  simp [accept, kind, execRequest, decoded]

theorem step_of_presentsReset (h : s.presentsReset) :
    step s = .next (resetEdge (s.withInputs s.inputs.tail)) := by
  obtain ⟨inp, first, rst⟩ := h
  obtain ⟨rest, inputs⟩ := List.head?_eq_some_iff.mp first
  simp [step, nextEdge, edge, inputs, rst]

/-- An edge that accepts a request is no reset (70_reset_and_hazards.md R181). -/
theorem not_presentsReset_of_presents (h : s.presents i) : ¬ s.presentsReset := by
  obtain ⟨inp, accepts, _⟩ := h
  exact fun reset => not_accepts_of_presentsReset reset accepts

theorem stack_of_step_push_ok (presented : s.presents (.push r)) (h : step s = .next t)
    (ok : t.rsp.status = .ok) : t.stack = viewRead r s.cells :: s.stack := by
  rw [step_of_presents presented] at h
  exact stack_of_exec_push_ok (s := s.withInputs s.inputs.tail) h ok

theorem stack_of_step_pop_ok (presented : s.presents (.pop r)) (h : step s = .next t)
    (ok : t.rsp.status = .ok) : s.stack = viewRead r t.cells :: t.stack := by
  rw [step_of_presents presented] at h
  exact stack_of_exec_pop_ok (s := s.withInputs s.inputs.tail) h ok

/-- The edge and the request are split by what they are: a reset is excluded, an instruction is
`stack_of_exec_transfer_or_error`, and nothing else touches the stack. -/
theorem stack_of_leavesStackAlone (h : LeavesStackAlone s t) : t.stack = s.stack := by
  obtain ⟨stepped, noReset, keeps⟩ := h
  obtain ⟨_, rfl⟩ | ⟨inp, rest, inputs, ⟨rst, _⟩ | ⟨_, _, rfl⟩ | ⟨rst, valid, accepted⟩⟩ :=
    step_cases stepped
  · rfl
  · exact absurd ⟨inp, by simp [inputs], rst⟩ noReset
  · rfl
  · obtain ⟨kind, i, decoded, executed⟩ | ⟨_, _, rfl⟩ | ⟨_, _, _, rfl⟩ | ⟨_, _, _, rfl⟩ |
      ⟨_, _, rfl⟩ | ⟨_, _, _, rfl⟩ := accept_cases accepted
    · have presented : s.presents i := ⟨inp, ⟨by simp [inputs], rst, valid⟩, kind, decoded⟩
      refine stack_of_exec_transfer_or_error (s := s.withInputs rest) executed
        (keeps.imp_left fun other r => ?_)
      exact ⟨fun push => (other r).1 (push ▸ presented), fun pop => (other r).2 (pop ▸ presented)⟩
    all_goals rfl

/-- Settles O28: the stack after a step that pushes, pops, leaves the stack alone or resets. -/
theorem onlyPushAndPopChangeTheStack : Obligations.OnlyPushAndPopChangeTheStack := by
  unfold Obligations.OnlyPushAndPopChangeTheStack
  intro s t stepped
  refine ⟨fun r presented ok => ?push, fun r presented ok => ?pop, fun r presented failed => ?failed,
    fun other noReset => stack_of_leavesStackAlone ⟨stepped, noReset, .inl other⟩, fun reset => ?reset⟩
  case push => rw [stack_of_step_push_ok presented stepped ok, List.length_cons]
  case pop => rw [stack_of_step_pop_ok presented stepped ok, List.length_cons]
  case failed =>
    have noReset : ¬ s.presentsReset :=
      presented.elim not_presentsReset_of_presents not_presentsReset_of_presents
    exact stack_of_leavesStackAlone ⟨stepped, noReset, .inr failed⟩
  case reset =>
    obtain rfl : resetEdge (s.withInputs s.inputs.tail) = t := by
      simpa [step_of_presentsReset reset] using stepped
    rfl

/-! ### Last in, first out (R134) -/

/-- The values pushed stand on the first stack, the last on top. -/
theorem stack_of_pushes (h : Pushes s vs t) : t.stack = vs.reverse ++ s.stack := by
  induction h with
  | done => rfl
  | push r _ presented stepped ok ih =>
    rw [stack_of_step_push_ok presented stepped ok, ih, List.reverse_concat, List.cons_append]
  | other _ stepped ih => rw [stack_of_leavesStackAlone stepped, ih]

/-- The values popped, in their order, stood on what is left of the stack. -/
theorem stack_of_pops (h : Pops s ws t) : s.stack = ws ++ t.stack := by
  induction h with
  | done => rfl
  | pop r _ presented stepped ok ih =>
    rw [ih, stack_of_step_pop_ok presented stepped ok, List.append_assoc, List.singleton_append]
  | other _ stepped ih => rw [ih, stack_of_leavesStackAlone stepped]

/-- Settles O27: one PUSH and one POP by their answers; in general the stack between the PUSHes and the
POPs is read both ways, and lists of one length in front of it are equal. -/
theorem stackIsLastInFirstOut : Obligations.StackIsLastInFirstOut := by
  unfold Obligations.StackIsLastInFirstOut
  refine ⟨fun s t r r2 pushed ok word => ?_, fun s t u vs ws pushes pops lengths => ?_⟩
  · have top := stack_of_exec_push_ok pushed ok
    exact ⟨_, exec_pop_of_word top word, rfl, rfl, viewRead_viewWrite_of_word word _ t.cells⟩
  · have between : ws ++ u.stack = vs.reverse ++ s.stack :=
      (stack_of_pops pops).symm.trans (stack_of_pushes pushes)
    exact List.append_inj between (by rw [lengths, List.length_reverse])

end Sys2Proof.Machine

/-! ## Errors (60_exceptions.md R151 to R157)

`Raises s e` lists the causes of the errors, each with the checks that come before it (R157). An accepted
request with a cause ends in that error's response and nothing else, one without ends in OK; the statements
read their error's cause off this. -/

namespace Sys2Proof.Machine

variable {r q src dst : RegisterRef} {i : Instr} {inp : Inputs} {e : ExecError} {s t : State}

/-! ### Illegal requests (R155) -/

theorem row_mem_opcodeTable (i : Instr) : i.row ∈ opcodeTable := by
  cases i <;> simp [Instr.row, opcodeTable]

/-- The opcode map's masks and matches hold of the words the decoder accepts, and of no others. -/
theorem legalWord_iff_decodes {w : Word} : legalWord w = true ↔ ∃ i, decode w = .ok i := by
  refine ⟨decodes_of_legalWord, fun ⟨i, decoded⟩ => ?_⟩
  obtain rfl := decode_eq_ok_iff.mp decoded
  have row := row_mem_opcodeTable i
  exact List.any_eq_true.mpr ⟨i.row, row, (encodes_encode_iff i i.row row).mpr rfl⟩

theorem legalRef_eq_false_iff {c : RefCode} : legalRef c = false ↔ c.extractLsb' 0 2 = 3 :=
  bne_eq_false_iff_eq

theorem reqKind_cases (k : BitVec 2) : k = 0 ∨ k = 1 ∨ k = 2 ∨ k = 3 := by
  revert k
  decide

/-- R77 and R155 list the same requests. -/
theorem legalRequest_eq_false_iff {k : BitVec 2} {w : Word} {c : RefCode} :
    legalRequest k w c = false ↔
      (k = 0 ∧ ¬ ∃ i, decode w = .ok i) ∨ k = 3 ∨ ((k = 1 ∨ k = 2) ∧ c.extractLsb' 0 2 = 3) := by
  rw [← legalWord_iff_decodes, ← legalRef_eq_false_iff, Bool.not_eq_true]
  obtain rfl | rfl | rfl | rfl := reqKind_cases k <;> simp [legalRequest]

/-! ### The causes of the errors (R152 to R155, R157) -/

/-- The request that the next edge accepts ends in the error e. -/
inductive Raises (s : State) : ExecError → Prop where
  | illegalEncoding {inp : Inputs} (accepted : s.accepts inp)
      (illegal : legalRequest inp.reqKind inp.reqInstr inp.reqRef = false) : Raises s .illegalEncoding
  | sizeMismatch {src dst : RegisterRef} (presented : s.presents (.mov src dst) ∨ s.presents (.xchg src dst))
      (incompatible : compatible src dst = false) : Raises s (sizeMismatchOf src dst)
  | stackOverflow {src : RegisterRef} (presented : s.presents (.push src))
      (full : stackFull s = true) : Raises s .stackOverflow
  | pushWidth {src : RegisterRef} (presented : s.presents (.push src))
      (notFull : stackFull s = false) (byte : src.view ≠ .word) : Raises s (.invalidOperandWidth src)
  | stackUnderflow {dst : RegisterRef} (presented : s.presents (.pop dst))
      (empty : s.stack = []) : Raises s .stackUnderflow
  | popWidth {dst : RegisterRef} (presented : s.presents (.pop dst))
      (nonempty : s.stack ≠ []) (byte : dst.view ≠ .word) : Raises s (.invalidOperandWidth dst)

/-- The state after a request that ends in the error e: only the response is new (R156). -/
def State.raised (s : State) (e : ExecError) : State :=
  (s.withInputs s.inputs.tail).withRsp (errorResponse e)

@[simp] theorem raised_rsp (s : State) (e : ExecError) : (s.raised e).rsp = errorResponse e := rfl

/-- A cause is enough: the step ends in its error. -/
theorem step_of_raises (h : Raises s e) : step s = .next (s.raised e) := by
  cases h with
  | illegalEncoding accepted illegal =>
    obtain ⟨rest, inputs, rst, valid⟩ := accepts_iff.mp accepted
    have cause := (legalRequest_eq_false_iff.mp illegal).imp_right Or.symm
    rw [step_of_accepted inputs rst valid, accept_eq_raise_of_illegal cause, raise, State.raised, inputs,
      List.tail_cons]
  | sizeMismatch presented incompatible =>
    obtain mov | xchg := presented
    · exact (step_of_presents mov).trans (exec_mov_of_not_compatible incompatible _)
    · exact (step_of_presents xchg).trans (exec_xchg_of_not_compatible incompatible _)
  | stackOverflow presented full =>
    exact (step_of_presents presented).trans (exec_push_of_full (s := s.withInputs s.inputs.tail) full _)
  | pushWidth presented notFull byte =>
    exact (step_of_presents presented).trans (exec_push_of_byte notFull byte)
  | stackUnderflow presented empty =>
    exact (step_of_presents presented).trans (exec_pop_of_empty (s := s.withInputs s.inputs.tail) empty _)
  | popWidth presented nonempty byte =>
    obtain ⟨v, rest, top⟩ := List.exists_cons_of_ne_nil nonempty
    exact (step_of_presents presented).trans (exec_pop_of_byte top byte)

theorem eq_raised_of_raises (h : Raises s e) (stepped : step s = .next t) : t = s.raised e := by
  rw [step_of_raises h] at stepped
  exact (Host.Outcome.next.inj stepped).symm

theorem rsp_of_raises (h : Raises s e) (stepped : step s = .next t) : t.rsp = errorResponse e := by
  rw [eq_raised_of_raises h stepped, raised_rsp]

theorem status_of_raises (h : Raises s e) (stepped : step s = .next t) : t.rsp.status = e.status := by
  rw [rsp_of_raises h stepped, errorResponse]

/-- An instruction answers OK, or a check of its rule failed. -/
theorem ok_or_raises_of_exec (presented : s.presents i)
    (executed : exec i (s.withInputs s.inputs.tail) = .next t) :
    t.rsp = okResponse 0 ∨ ∃ e, Raises s e := by
  cases i with
  | mov src dst =>
    obtain ⟨_, rfl⟩ | ⟨incompatible, _⟩ := execMov_cases executed
    · exact .inl rfl
    · exact .inr ⟨_, .sizeMismatch (.inl presented) incompatible⟩
  | xchg src dst =>
    obtain ⟨_, rfl⟩ | ⟨incompatible, _⟩ := execXchg_cases executed
    · exact .inl rfl
    · exact .inr ⟨_, .sizeMismatch (.inr presented) incompatible⟩
  | push src =>
    obtain ⟨full, _⟩ | ⟨notFull, byte, _⟩ | ⟨_, _, rfl⟩ := execPush_cases executed
    · exact .inr ⟨_, .stackOverflow presented full⟩
    · exact .inr ⟨_, .pushWidth presented notFull byte⟩
    · exact .inl rfl
  | pop dst =>
    obtain ⟨empty, _⟩ | ⟨v, rest, top, byte, _⟩ | ⟨_, _, _, _, rfl⟩ := execPop_cases executed
    · exact .inr ⟨_, .stackUnderflow presented empty⟩
    · have nonempty : s.stack ≠ [] := List.ne_nil_of_mem (top ▸ List.mem_cons_self)
      exact .inr ⟨_, .popWidth presented nonempty byte⟩
    · exact .inl rfl

/-- A cause is needed: an accepted request without one answers OK. -/
theorem ok_or_raises_of_accepts (accepted : s.accepts inp) (stepped : step s = .next t) :
    (∃ data, t.rsp = okResponse data) ∨ ∃ e, Raises s e := by
  have illegal (h) : ∃ e, Raises s e := ⟨_, .illegalEncoding accepted (legalRequest_eq_false_iff.mpr h)⟩
  obtain ⟨rest, inputs, rst, valid⟩ := accepts_iff.mp accepted
  rw [step_of_accepted inputs rst valid] at stepped
  obtain ⟨kind, i, decoded, executed⟩ | ⟨kind, ⟨_, rejected⟩, _⟩ | ⟨_, _, _, rfl⟩ | ⟨_, _, _, rfl⟩ |
    ⟨kind, reserved, _⟩ | ⟨notExec, notRead, notWrite, _⟩ := accept_cases stepped
  · have presented : s.presents i := ⟨inp, accepted, kind, decoded⟩
    refine (ok_or_raises_of_exec presented ?_).imp_left fun ok => ⟨0, ok⟩
    rwa [inputs]
  · exact .inr (illegal (.inl ⟨kind, by simp [rejected]⟩))
  · exact .inl ⟨_, rfl⟩
  · exact .inl ⟨_, rfl⟩
  · exact .inr (illegal (.inr (.inr ⟨kind, refOf_eq_none_iff.mp reserved⟩)))
  · have kind : inp.reqKind = 3 :=
      (((reqKind_cases _).resolve_left notExec).resolve_left notRead).resolve_left notWrite
    exact .inr (illegal (.inr (.inl kind)))

/-- An accepted request ends in an error iff the error has a cause. -/
theorem status_eq_iff_raises (accepted : s.accepts inp) (stepped : step s = .next t) {σ : Status}
    (error : σ ≠ .ok) : t.rsp.status = σ ↔ ∃ e, Raises s e ∧ e.status = σ := by
  constructor
  · intro status
    obtain ⟨data, ok⟩ | ⟨e, cause⟩ := ok_or_raises_of_accepts accepted stepped
    · rw [ok] at status
      exact absurd status.symm error
    · exact ⟨e, cause, (status_of_raises cause stepped).symm.trans status⟩
  · rintro ⟨e, cause, rfl⟩
    exact status_of_raises cause stepped

/-- `status_eq_iff_raises` for an error known by its status, as the three are that record nothing. -/
theorem status_eq_iff_raises_of_status_unique (accepted : s.accepts inp) (stepped : step s = .next t)
    (unique : ∀ e' : ExecError, e'.status = e.status → e' = e) : t.rsp.status = e.status ↔ Raises s e := by
  refine ⟨fun status => ?_, fun cause => status_of_raises cause stepped⟩
  obtain ⟨e', cause, same⟩ := (status_eq_iff_raises accepted stepped (by cases e <;> nofun)).mp status
  exact unique e' same ▸ cause

/-! ### SizeMismatch (R152) -/

theorem cause_of_status_sizeMismatch (h : Raises s e) (status : e.status = .sizeMismatch) :
    ∃ src dst, (s.presents (.mov src dst) ∨ s.presents (.xchg src dst)) ∧ compatible src dst = false := by
  cases h with
  | sizeMismatch presented incompatible => exact ⟨_, _, presented, incompatible⟩
  | illegalEncoding | stackOverflow | pushWidth | stackUnderflow | popWidth => cases status

/-- R152: of two incompatible operands one is 16 bits wide and the other 8. -/
theorem widths_of_not_compatible (h : compatible src dst = false) :
    (widthOf src = 16 ∧ widthOf dst = 8) ∨ (widthOf src = 8 ∧ widthOf dst = 16) := by
  obtain ⟨L, u⟩ := src
  obtain ⟨M, u'⟩ := dst
  revert h
  cases u <;> cases u' <;> simp [compatible, widthClass, widthOf]

/-- Settles O31: SizeMismatch has one cause, and its ports carry the two widths of incompatible operands. -/
theorem sizeMismatchExactlyOnIncompatibleOperands :
    Obligations.SizeMismatchExactlyOnIncompatibleOperands := by
  unfold Obligations.SizeMismatchExactlyOnIncompatibleOperands
  intro s t inp accepted stepped
  rw [status_eq_iff_raises accepted stepped (σ := .sizeMismatch) nofun]
  refine ⟨⟨fun ⟨e, cause, status⟩ => cause_of_status_sizeMismatch cause status, ?_⟩,
    fun src dst presented incompatible => ?_⟩
  · rintro ⟨src, dst, presented, incompatible⟩
    exact ⟨_, .sizeMismatch presented incompatible, rfl⟩
  · rw [rsp_of_raises (.sizeMismatch presented incompatible) stepped]
    refine ⟨rfl, ?_⟩
    simp only [errorResponse, sizeMismatchOf, ExecError.width0, ExecError.width1]
    obtain ⟨source, destination⟩ | ⟨source, destination⟩ := widths_of_not_compatible incompatible <;>
      simp [source, destination]

/-! ### InvalidOperandWidth (R153) -/

theorem cause_of_status_invalidOperandWidth (h : Raises s e) (status : e.status = .invalidOperandWidth) :
    ∃ r : RegisterRef, e = .invalidOperandWidth r ∧ r.view ≠ .word ∧
      (s.presents (.push r) ∧ stackFull s = false ∨ s.presents (.pop r) ∧ s.stack ≠ []) := by
  cases h with
  | pushWidth presented notFull byte => exact ⟨_, rfl, byte, .inl ⟨presented, notFull⟩⟩
  | popWidth presented nonempty byte => exact ⟨_, rfl, byte, .inr ⟨presented, nonempty⟩⟩
  | illegalEncoding | sizeMismatch | stackOverflow | stackUnderflow => cases status

/-- One edge presents at most one operand of a stack instruction. -/
theorem operand_unique (hr : s.presents (.push r) ∨ s.presents (.pop r))
    (hq : s.presents (.push q) ∨ s.presents (.pop q)) : r = q := by
  obtain hr | hr := hr <;> obtain hq | hq := hq <;> cases presents_unique hr hq <;> rfl

/-- Settles O32: the error has two causes, a PUSH and a POP, and the operand it records is the one the edge
presents. -/
theorem invalidOperandWidthExactlyOnByteViews : Obligations.InvalidOperandWidthExactlyOnByteViews := by
  unfold Obligations.InvalidOperandWidthExactlyOnByteViews
  intro s t inp accepted stepped
  rw [status_eq_iff_raises accepted stepped (σ := .invalidOperandWidth) nofun, ne_eq, ← stackFull_iff,
    Bool.not_eq_true]
  refine ⟨⟨fun ⟨e, cause, status⟩ => ?_, ?_⟩, fun ⟨e, cause, status⟩ r presented => ?_⟩
  · obtain ⟨r, _, byte, operand⟩ := cause_of_status_invalidOperandWidth cause status
    exact ⟨r, byte, operand⟩
  · rintro ⟨r, byte, ⟨push, notFull⟩ | ⟨pop, nonempty⟩⟩
    · exact ⟨_, .pushWidth push notFull byte, rfl⟩
    · exact ⟨_, .popWidth pop nonempty byte, rfl⟩
  · obtain ⟨q, rfl, _, operand⟩ := cause_of_status_invalidOperandWidth cause status
    obtain rfl := operand_unique presented (operand.imp And.left And.left)
    exact rsp_of_raises cause stepped

/-! ### The errors that record nothing (R154, R155) -/

theorem raises_stackUnderflow_iff :
    Raises s .stackUnderflow ↔ (∃ r, s.presents (.pop r)) ∧ s.stack = [] := by
  constructor
  · intro h
    cases h with
    | stackUnderflow presented empty => exact ⟨⟨_, presented⟩, empty⟩
  · rintro ⟨⟨r, presented⟩, empty⟩
    exact .stackUnderflow presented empty

theorem raises_stackOverflow_iff :
    Raises s .stackOverflow ↔ (∃ r, s.presents (.push r)) ∧ stackFull s = true := by
  constructor
  · intro h
    cases h with
    | stackOverflow presented full => exact ⟨⟨_, presented⟩, full⟩
  · rintro ⟨⟨r, presented⟩, full⟩
    exact .stackOverflow presented full

theorem raises_illegalEncoding_iff (accepted : s.accepts inp) :
    Raises s .illegalEncoding ↔ legalRequest inp.reqKind inp.reqInstr inp.reqRef = false := by
  constructor
  · intro h
    cases h with
    | illegalEncoding accepted' illegal => exact accepts_unique accepted' accepted ▸ illegal
  · exact .illegalEncoding accepted

/-- Settles O33: each of the two has one cause, and R130's test of the depth is `stackFull_iff`. -/
theorem stackErrorsExactlyAtTheEnds : Obligations.StackErrorsExactlyAtTheEnds := by
  unfold Obligations.StackErrorsExactlyAtTheEnds
  intro s t inp accepted stepped
  have underflow : t.rsp.status = .stackUnderflow ↔ Raises s .stackUnderflow :=
    status_eq_iff_raises_of_status_unique accepted stepped fun | .stackUnderflow, _ => rfl
  have overflow : t.rsp.status = .stackOverflow ↔ Raises s .stackOverflow :=
    status_eq_iff_raises_of_status_unique accepted stepped fun | .stackOverflow, _ => rfl
  rw [← stackFull_iff]
  exact ⟨underflow.trans raises_stackUnderflow_iff, overflow.trans raises_stackOverflow_iff,
    fun status => rsp_of_raises (underflow.mp status) stepped,
    fun status => rsp_of_raises (overflow.mp status) stepped⟩

/-- Settles O34: the cause is an illegal request, which `legalRequest_eq_false_iff` spells out as R155 does. -/
theorem illegalEncodingExactlyOnIllegalRequests : Obligations.IllegalEncodingExactlyOnIllegalRequests := by
  unfold Obligations.IllegalEncodingExactlyOnIllegalRequests
  intro s t inp accepted stepped
  have illegal : t.rsp.status = .illegalEncoding ↔ Raises s .illegalEncoding :=
    status_eq_iff_raises_of_status_unique accepted stepped fun | .illegalEncoding, _ => rfl
  rw [← legalRequest_eq_false_iff]
  exact ⟨illegal.trans (raises_illegalEncoding_iff accepted),
    fun status => rsp_of_raises (illegal.mp status) stepped⟩

/-! ### Errors are atomic and the first is reported (R156, R157) -/

/-- Settles O35: a status other than OK has a cause, and `State.raised` is what the step then ends in. -/
theorem errorsAreAtomic : Obligations.ErrorsAreAtomic := by
  unfold Obligations.ErrorsAreAtomic
  intro s t inp accepted stepped failed
  obtain ⟨e, cause, _⟩ := (status_eq_iff_raises accepted stepped failed).mp rfl
  obtain rfl := eq_raised_of_raises cause stepped
  rfl

/-- A request that completes answers OK. -/
theorem status_of_step_eq_complete {data : Word} {u : State} (h : step s = complete data u)
    (stepped : step s = .next t) : t.rsp.status = .ok := by
  obtain rfl : u.withRsp (okResponse data) = t := by simpa [h] using stepped
  rfl

theorem status_of_push (presented : s.presents (.push r)) (stepped : step s = .next t) :
    t.rsp.status = if s.config.stackDepth = .bounded s.stack.length then .stackOverflow
      else if r.view ≠ .word then .invalidOperandWidth else .ok := by
  split_ifs with full byte
  · exact status_of_raises (.stackOverflow presented (stackFull_iff.mpr full)) stepped
  all_goals rw [← stackFull_iff, Bool.not_eq_true] at full
  · exact status_of_raises (.pushWidth presented full byte) stepped
  · have pushed := exec_push_of_word (s := s.withInputs s.inputs.tail) full (not_not.mp byte)
    exact status_of_step_eq_complete ((step_of_presents presented).trans pushed) stepped

theorem status_of_pop (presented : s.presents (.pop r)) (stepped : step s = .next t) :
    t.rsp.status = if s.stack = [] then .stackUnderflow
      else if r.view ≠ .word then .invalidOperandWidth else .ok := by
  split_ifs with empty byte
  · exact status_of_raises (.stackUnderflow presented empty) stepped
  · exact status_of_raises (.popWidth presented empty byte) stepped
  · obtain ⟨v, rest, top⟩ := List.exists_cons_of_ne_nil empty
    have popped := exec_pop_of_word (s := s.withInputs s.inputs.tail) top (not_not.mp byte)
    exact status_of_step_eq_complete ((step_of_presents presented).trans popped) stepped

theorem status_of_transfer (presented : s.presents (.mov src dst) ∨ s.presents (.xchg src dst))
    (stepped : step s = .next t) :
    t.rsp.status = if compatible src dst then .ok else .sizeMismatch := by
  split_ifs with comp
  · obtain mov | xchg := presented
    · have moved := (step_of_presents mov).trans (exec_mov_of_compatible comp _)
      exact status_of_step_eq_complete moved stepped
    · have swapped := (step_of_presents xchg).trans (exec_xchg_of_compatible comp _)
      exact status_of_step_eq_complete swapped stepped
  · exact status_of_raises (.sizeMismatch presented (Bool.not_eq_true _ ▸ comp)) stepped

theorem rsp_valid_of_accepts (accepted : s.accepts inp) (stepped : step s = .next t) :
    t.rsp.valid = true := by
  obtain ⟨data, ok⟩ | ⟨e, cause⟩ := ok_or_raises_of_accepts accepted stepped
  · rw [ok, okResponse]
  · rw [rsp_of_raises cause stepped, errorResponse]

theorem status_of_legal_read_or_write (accepted : s.accepts inp) (stepped : step s = .next t)
    (kind : inp.reqKind = 1 ∨ inp.reqKind = 2) (legal : legalRef inp.reqRef = true) :
    t.rsp.status = .ok := by
  obtain ⟨rest, inputs, rst, valid⟩ := accepts_iff.mp accepted
  obtain ⟨r, ref⟩ := exists_eq_code_iff.mpr legal
  obtain read | write := kind
  · exact status_of_step_eq_complete (step_read inputs rst valid read ref) stepped
  · exact status_of_step_eq_complete (step_write inputs rst valid write ref) stepped

/-- Settles O36: each kind of request is split in the order of R157's checks; a check that fails is a cause. -/
theorem firstErrorIsReported : Obligations.FirstErrorIsReported := by
  unfold Obligations.FirstErrorIsReported
  intro s t inp accepted stepped
  refine ⟨rsp_valid_of_accepts accepted stepped, fun illegal => ?_,
    fun r presented => status_of_push presented stepped, fun r presented => status_of_pop presented stepped,
    fun src dst presented => status_of_transfer presented stepped,
    status_of_legal_read_or_write accepted stepped⟩
  exact status_of_raises (.illegalEncoding accepted illegal) stepped

end Sys2Proof.Machine

/-! ## Reset edges (70_reset_and_hazards.md R180, R181) -/

namespace Sys2Proof.Machine

/-- The reset values of R180, field by field; the parameter and the coming inputs stay. -/
theorem resetEdge_eq_resetValues (s : State) :
    resetEdge s =
      { cells := ⟨0, 0, 0, 0⟩, stack := [], rsp := ⟨false, .ok, 0, 0, 0, 0, 0⟩
        config := s.config, inputs := s.inputs } := rfl

/-- Settles O42: nothing is assumed of the request beside `rst`, since an edge that presents a reset is a
reset edge whatever else its inputs carry; that edge takes its own inputs and leaves the reset values. -/
theorem resetEdgeGivesTheResetValues : Obligations.ResetEdgeGivesTheResetValues := by
  unfold Obligations.ResetEdgeGivesTheResetValues
  intro s inp rest inputs rst
  have reset : s.presentsReset := ⟨inp, by simp [inputs], rst⟩
  have taken : s.inputs.tail = rest := by simp [inputs]
  rw [step_of_presentsReset reset, taken, resetEdge_eq_resetValues]
  rfl

end Sys2Proof.Machine

/-! ## Every step keeps the response consistent (30_encoding.md R63, 60_exceptions.md R152 to R155)

A response is OK's, an error's with a cause, reset's, or the last one held: each agrees with its status. -/

namespace Sys2Proof.Machine

variable {src dst : RegisterRef} {e : ExecError} {s t : State}

theorem legalRef_code (r : RegisterRef) : legalRef r.code = true :=
  exists_eq_code_iff.mp ⟨r, rfl⟩

/-- A RegisterRef's code stands for the RegisterRef's width (00_scope.md R12). -/
theorem portWidth_code (r : RegisterRef) : portWidth r.code = BitVec.ofNat 5 (widthOf r) := by
  obtain ⟨L, u⟩ := r
  cases L <;> cases u <;> rfl

theorem widthOf_of_byte {r : RegisterRef} (byte : r.view ≠ .word) : widthOf r = 8 := by
  obtain ⟨L, u⟩ := r
  cases u with
  | word => exact absurd rfl byte
  | lowByte => rfl
  | highByte => rfl

theorem responseWellFormed_okResponse (data : Word) : responseWellFormed (okResponse data) = true := rfl

theorem responseWellFormed_sizeMismatch (incompatible : compatible src dst = false) :
    responseWellFormed (errorResponse (sizeMismatchOf src dst)) = true := by
  have differ : BitVec.ofNat 5 (widthOf src) ≠ BitVec.ofNat 5 (widthOf dst) := by
    obtain ⟨source, destination⟩ | ⟨source, destination⟩ := widths_of_not_compatible incompatible <;>
      simp [source, destination]
  simp [responseWellFormed, errorResponse, sizeMismatchOf, ExecError.status, ExecError.name0,
    ExecError.name1, ExecError.width0, ExecError.width1, legalRef_code, portWidth_code, differ]

theorem responseWellFormed_invalidOperandWidth {r : RegisterRef} (byte : r.view ≠ .word) :
    responseWellFormed (errorResponse (.invalidOperandWidth r)) = true := by
  simp [responseWellFormed, errorResponse, ExecError.status, ExecError.name0, ExecError.name1,
    ExecError.width0, ExecError.width1, legalRef_code, portWidth_code, widthOf_of_byte byte]

/-- What an error records is consistent where the error has its cause: SizeMismatch needs operands of
two widths, and InvalidOperandWidth a byte view. -/
theorem responseWellFormed_of_raises (h : Raises s e) : responseWellFormed (errorResponse e) = true := by
  cases h with
  | sizeMismatch _ incompatible => exact responseWellFormed_sizeMismatch incompatible
  | pushWidth _ _ byte => exact responseWellFormed_invalidOperandWidth byte
  | popWidth _ _ byte => exact responseWellFormed_invalidOperandWidth byte
  | illegalEncoding | stackOverflow | stackUnderflow => rfl

/-- Settles O49: the status of the reset response is OK and every port is 0. -/
theorem resetResponseIsWellFormed : Obligations.ResetResponseIsWellFormed := by
  unfold Obligations.ResetResponseIsWellFormed
  rfl

/-- An idle edge clears `rsp_valid` only, which no port has to agree with. -/
theorem responseWellFormed_idleEdge (s : State) :
    responseWellFormed (idleEdge s).rsp = responseWellFormed s.rsp := rfl

/-- Settles O48: an idle edge holds the response, a reset edge gives the reset response, and an accepted
request answers OK or an error that has its cause. -/
theorem stepKeepsTheResponseWellFormed : Obligations.StepKeepsTheResponseWellFormed := by
  unfold Obligations.StepKeepsTheResponseWellFormed
  intro s t wellFormed stepped
  obtain ⟨_, rfl⟩ | ⟨inp, rest, inputs, ⟨_, rfl⟩ | ⟨_, _, rfl⟩ | ⟨rst, valid, _⟩⟩ := step_cases stepped
  · rwa [responseWellFormed_idleEdge]
  · exact resetResponseIsWellFormed
  · rwa [responseWellFormed_idleEdge]
  · have accepted : s.accepts inp := accepts_iff.mpr ⟨rest, inputs, rst, valid⟩
    obtain ⟨data, ok⟩ | ⟨e, cause⟩ := ok_or_raises_of_accepts accepted stepped
    · rw [ok, responseWellFormed_okResponse]
    · rw [rsp_of_raises cause stepped, responseWellFormed_of_raises cause]

end Sys2Proof.Machine

/-! ## Encoding and decoding (30_encoding.md R74, R80, R82) -/

namespace Sys2Proof

open Machine

/-- Settles O1: `decode_encode`, whatever the operands; well-formedness excludes no instruction. -/
theorem decodeOfEncode : Obligations.DecodeOfEncode := by
  unfold Obligations.DecodeOfEncode
  exact fun i _ => decode_encode i

/-- Settles O2: `decode_eq_ok_iff`, read from the word decoded. -/
theorem encodeOfDecode : Obligations.EncodeOfDecode := by
  unfold Obligations.EncodeOfDecode
  exact fun w i decoded => (decode_eq_ok_iff.mp decoded).symm

/-- Settles O5: each legal word is its instruction's encoding; the decoder names why it rejects the
others. -/
theorem exampleWordsDecode : Obligations.ExampleWordsDecode := by
  unfold Obligations.ExampleWordsDecode
  simp only [decode_eq_ok_iff]
  decide

/-! ### Assembler forms (R80, R81) -/

/-- A name is a RegisterRef's iff it is the one the table gives it. -/
theorem refNamed_eq_some_iff {name : String} {r : RegisterRef} :
    refNamed name = some r ↔ name = refName r := by
  refine ⟨fun found => ?_, by rintro rfl; exact refNamed_refName r⟩
  exact (beq_iff_eq.mp (List.find?_some (p := (refName · == name)) found)).symm

theorem assemble_disassemble (i : Instr) : assemble (disassemble i) = some i := by
  cases i <;> simp [disassemble, assemble, refNamed_refName]

theorem disassemble_of_assemble {ts : List String} {i : Instr} (h : assemble ts = some i) :
    disassemble i = ts := by
  unfold assemble at h
  split at h
  next m x y =>
    split at h
    next s d source destination =>
      obtain rfl := refNamed_eq_some_iff.mp source
      obtain rfl := refNamed_eq_some_iff.mp destination
      split_ifs at h with mov xchg
      · cases h; rw [mov, disassemble]
      · cases h; rw [xchg, disassemble]
    next => cases h
  next m x =>
    split at h
    next r operand =>
      obtain rfl := refNamed_eq_some_iff.mp operand
      split_ifs at h with push pop
      · cases h; rw [push, disassemble]
      · cases h; rw [pop, disassemble]
    next => cases h
  next => cases h

/-- Settles O7: every token of a form is read back, and the form that was read is the instruction's own. -/
theorem assembleAndDisassembleAgree : Obligations.AssembleAndDisassembleAgree := by
  unfold Obligations.AssembleAndDisassembleAgree
  exact ⟨assemble_disassemble, fun ts i => disassemble_of_assemble⟩

end Sys2Proof

/-! ## What the ports show (00_scope.md R9, 40_register_access.md R97, 60_exceptions.md R151) -/

namespace Sys2Proof.Machine

theorem depthWidth_bounded {n : Nat} (positive : 0 < n) : depthWidth (.bounded n) = some (n.log2 + 1) := by
  simp [depthWidth, positive.ne']

/-- Settles O16: `n.log2` is below j exactly where n is below 2^j, so `n.log2 + 1` is the least width;
the invariant keeps the depth at most n. -/
theorem depthWidthIsTheLeastThatFits : Obligations.DepthWidthIsTheLeastThatFits := by
  unfold Obligations.DepthWidthIsTheLeastThatFits
  intro s n bound ⟨legal, within⟩
  have positive : 0 < n := by simpa [Config.legal, bound] using legal
  have fits (j : Nat) : n.log2 < j ↔ n < 2 ^ j := Nat.log2_lt positive.ne'
  have depth : stackDepthPort s ≤ n := withinDepth_iff.mp within n bound
  have holds : n < 2 ^ (n.log2 + 1) := (fits _).mp (Nat.lt_succ_self _)
  rw [bound]
  exact ⟨n.log2 + 1, depthWidth_bounded positive, holds, fun j => (fits j).mpr, depth.trans_lt holds⟩

/-- Settles O15: every RegisterRef stands in the list the views are taken from, with the number
`viewRead_toNat` reads. -/
theorem snapshotHoldsEveryViewAndTheStack : Obligations.SnapshotHoldsEveryViewAndTheStack := by
  unfold Obligations.SnapshotHoldsEveryViewAndTheStack
  intro s
  refine ⟨by rw [snapshot, List.length_map, length_allRefs], fun r n => ?_, rfl⟩
  simp [snapshot, mem_allRefs, viewRead_toNat, eq_comm]

theorem status_code_injective {a b : Status} (h : a.code = b.code) : a = b := by
  revert h
  cases a <;> cases b <;> decide

/-- Settles O30: R151's table, and `status_code_injective`. -/
theorem statusCodesAreTheSpecs : Obligations.StatusCodesAreTheSpecs := by
  unfold Obligations.StatusCodesAreTheSpecs
  exact ⟨rfl, rfl, rfl, rfl, rfl, rfl, fun a b => status_code_injective⟩

/-! ## Reset (10_state.md R32, R34) -/

@[simp] theorem cellOf_reset (L : Letter) : cellOf L .reset = 0 := by
  cases L <;> rfl

theorem viewPort_of_cellOf_eq_zero {s : State} {r : RegisterRef} (h : cellOf r.letter s.cells = 0) :
    viewPort r s = 0 := by
  obtain ⟨L, u⟩ := r
  cases u <;> simp_all [viewPort, viewWordPort, viewLoPort, viewHiPort, lowByteOf, highByteOf]

/-- Settles O45: the cells are 0 by `cellOf_reset`, and a view shows bits of its cell. -/
theorem resetValues : Obligations.ResetValues := by
  unfold Obligations.ResetValues
  exact ⟨cellOf_reset, fun r => viewPort_of_cellOf_eq_zero (cellOf_reset r.letter),
    rfl, rfl, rfl, rfl, rfl, rfl, rfl, rfl, rfl⟩

theorem inv_of_stack_nil {s : State} (legal : s.config.legal = true) (empty : s.stack = []) : s.Inv :=
  ⟨legal, withinDepth_iff.mpr fun n _ => by simp [empty]⟩

/-- Settles O47: an empty stack is within any bound. -/
theorem resetMeetsTheDepthBound : Obligations.ResetMeetsTheDepthBound := by
  unfold Obligations.ResetMeetsTheDepthBound
  exact ⟨inv_of_stack_nil rfl rfl, fun s legal => inv_of_stack_nil (s := resetEdge s) legal rfl⟩

end Sys2Proof.Machine

/-! ## Frames and repetition of the instructions (20_memory.md section 4, 41_transfer.md, 42_stack.md) -/

namespace Sys2Proof.Machine

variable {r src dst : RegisterRef} {i : Instr} {s t : State}

/-- No instruction takes inputs; `exec_config_stack` says the same of the parameter. -/
theorem inputs_of_exec (h : exec i s = .next t) : t.inputs = s.inputs := by
  cases i with
  | mov src dst => obtain ⟨_, rfl⟩ | ⟨_, rfl⟩ := execMov_cases h <;> rfl
  | xchg src dst => obtain ⟨_, rfl⟩ | ⟨_, rfl⟩ := execXchg_cases h <;> rfl
  | push src => obtain ⟨_, rfl⟩ | ⟨_, _, rfl⟩ | ⟨_, _, rfl⟩ := execPush_cases h <;> rfl
  | pop dst => obtain ⟨_, rfl⟩ | ⟨_, _, _, _, rfl⟩ | ⟨_, _, _, _, rfl⟩ := execPop_cases h <;> rfl

theorem config_of_exec (h : exec i s = .next t) : t.config = s.config :=
  (exec_config_stack h).1

theorem cells_of_exec_mov (h : exec (.mov src dst) s = .next t) :
    (compatible src dst = true ∧ t.cells = viewWrite dst (viewRead src s.cells) s.cells) ∨
    (compatible src dst = false ∧ t.cells = s.cells) := by
  obtain ⟨comp, rfl⟩ | ⟨incomp, rfl⟩ := execMov_cases h
  · exact .inl ⟨comp, rfl⟩
  · exact .inr ⟨incomp, rfl⟩

theorem cells_of_exec_xchg (h : exec (.xchg src dst) s = .next t) :
    (compatible src dst = true ∧ t.cells = viewSwap src dst s.cells) ∨
    (compatible src dst = false ∧ t.cells = s.cells) := by
  obtain ⟨comp, rfl⟩ | ⟨incomp, rfl⟩ := execXchg_cases h
  · exact .inl ⟨comp, rfl⟩
  · exact .inr ⟨incomp, rfl⟩

theorem viewRead_viewSwap_of_not_sharesBits (source : sharesBits r src = false)
    (destination : sharesBits r dst = false) (c : Cells) :
    viewRead r (viewSwap src dst c) = viewRead r c := by
  rw [viewSwap, viewRead_viewWrite_of_not_sharesBits destination,
    viewRead_viewWrite_of_not_sharesBits source]

/-- MOV and XCHG leave the stack alone, as every instruction but PUSH and POP does. -/
theorem stack_of_exec_mov (h : exec (.mov src dst) s = .next t) : t.stack = s.stack :=
  stack_of_exec_transfer_or_error h (.inl fun _ => ⟨nofun, nofun⟩)

theorem stack_of_exec_xchg (h : exec (.xchg src dst) s = .next t) : t.stack = s.stack :=
  stack_of_exec_transfer_or_error h (.inl fun _ => ⟨nofun, nofun⟩)

/-- Settles O22: of the cells, only views that share a bit with a written one see the write. -/
theorem transferLeavesTheRestUnchanged : Obligations.TransferLeavesTheRestUnchanged := by
  unfold Obligations.TransferLeavesTheRestUnchanged
  refine fun src dst s t => ⟨fun moved => ⟨stack_of_exec_mov moved, config_of_exec moved,
    inputs_of_exec moved, fun r disjoint => ?_⟩, fun swapped => ⟨stack_of_exec_xchg swapped,
    config_of_exec swapped, inputs_of_exec swapped, fun r source destination => ?_⟩⟩
  · obtain ⟨_, cells⟩ | ⟨_, cells⟩ := cells_of_exec_mov moved
    · rw [cells, viewRead_viewWrite_of_not_sharesBits disjoint]
    · rw [cells]
  · obtain ⟨_, cells⟩ | ⟨_, cells⟩ := cells_of_exec_xchg swapped
    · rw [cells, viewRead_viewSwap_of_not_sharesBits source destination]
    · rw [cells]

/-- Settles O26: PUSH only adds on top, POP only takes the top and writes its destination's letter. -/
theorem stackInstructionsLeaveTheRestUnchanged : Obligations.StackInstructionsLeaveTheRestUnchanged := by
  unfold Obligations.StackInstructionsLeaveTheRestUnchanged
  refine ⟨fun src s t pushed => ?_, fun dst s t popped => ?_⟩
  · obtain ⟨_, rfl⟩ | ⟨_, _, rfl⟩ | ⟨_, _, rfl⟩ := execPush_cases pushed
    · exact ⟨rfl, rfl, rfl, List.suffix_rfl⟩
    · exact ⟨rfl, rfl, rfl, List.suffix_rfl⟩
    · exact ⟨rfl, rfl, rfl, List.suffix_cons _ _⟩
  · obtain ⟨_, rfl⟩ | ⟨_, _, _, _, rfl⟩ | ⟨v, rest, top, _, rfl⟩ := execPop_cases popped
    · exact ⟨fun _ _ => rfl, rfl, rfl, List.suffix_rfl⟩
    · exact ⟨fun _ _ => rfl, rfl, rfl, List.suffix_rfl⟩
    · refine ⟨fun L other => cellOf_viewWrite_of_ne other v s.cells, rfl, rfl, ?_⟩
      rw [top]
      exact List.suffix_cons v rest

/-! ### A second identical write, MOV or XCHG -/

theorem writeBits_writeBits (u : View) (v v' w : Word) :
    writeBits u v (writeBits u v' w) = writeBits u v w := by
  cases u <;> simp [writeBits]

/-- The last write through a view counts. -/
@[simp] theorem viewWrite_viewWrite (r : RegisterRef) (v v' : Word) (c : Cells) :
    viewWrite r v (viewWrite r v' c) = viewWrite r v c := by
  rw [viewWrite_eq_setCell, cellOf_viewWrite, if_pos rfl, writeBits_writeBits, viewWrite_eq_setCell r v',
    setCell_setCell, ← viewWrite_eq_setCell]

/-- The second swap writes back what each operand held, over the values the first one wrote. -/
theorem viewSwap_viewSwap (h : compatible src dst = true) (c : Cells) :
    viewSwap src dst (viewSwap src dst c) = c := by
  obtain rfl | disjoint := eq_or_not_sharesBits_of_compatible h
  · rw [viewSwap_self, viewSwap_self]
  · calc viewSwap src dst (viewSwap src dst c)
      _ = viewWrite dst (viewRead dst c) (viewWrite src (viewRead src c) (viewSwap src dst c)) := by
        rw [viewSwap, viewRead_src_viewSwap h, viewRead_dst_viewSwap h]
      _ = viewWrite dst (viewRead dst c) (viewWrite src (viewRead src c) c) := by
        rw [viewSwap, viewWrite_comm_of_not_sharesBits disjoint, viewWrite_viewWrite, viewWrite_viewWrite]
      _ = c := by rw [viewWrite_viewRead_self, viewWrite_viewRead_self]

/-- Settles O23: the second MOV writes what the destination already shows, since the source is as it was;
the second XCHG is the swap undone; and the last write through a view counts. -/
theorem repeatedTransferIsIdempotentOrRestores : Obligations.RepeatedTransferIsIdempotentOrRestores := by
  unfold Obligations.RepeatedTransferIsIdempotentOrRestores
  refine ⟨fun src dst s t u first second => ?mov, fun src dst s t u first second => ?xchg,
    fun r v => viewWrite_viewWrite r v v⟩
  case mov =>
    obtain ⟨comp, again⟩ | ⟨_, again⟩ := cells_of_exec_mov second
    · obtain ⟨_, cells⟩ | ⟨incomp, _⟩ := cells_of_exec_mov first
      · rw [again, cells, viewRead_viewWrite_viewRead comp, viewWrite_viewWrite]
      · simp [comp] at incomp
    · exact again
  case xchg =>
    obtain ⟨comp, cells⟩ | ⟨incomp, cells⟩ := cells_of_exec_xchg first <;>
      obtain ⟨comp', again⟩ | ⟨incomp', again⟩ := cells_of_exec_xchg second
    · rw [again, cells, viewSwap_viewSwap comp]
    · simp [comp] at incomp'
    · simp [comp'] at incomp
    · rw [again, cells]

/-! ## Steps (30_encoding.md R65, R66, 60_exceptions.md R150, 70_reset_and_hazards.md R190) -/

/-! ### Idle edges -/

theorem step_of_no_inputs (h : s.inputs = []) : step s = .next (idleEdge s) := by
  simp [step, nextEdge, h]

theorem step_of_no_request {inp : Inputs} {rest : List Inputs} (inputs : s.inputs = inp :: rest)
    (rst : inp.rst = false) (valid : inp.reqValid = false) :
    step s = .next (idleEdge (s.withInputs rest)) := by
  simp [step, nextEdge, edge, inputs, rst, valid]

/-- Settles O43: `idleEdge` at an edge without a request and at one past the list. -/
theorem idleEdgeHoldsTheState : Obligations.IdleEdgeHoldsTheState := by
  unfold Obligations.IdleEdgeHoldsTheState
  exact fun s => ⟨fun inp rest => step_of_no_request, step_of_no_inputs⟩

/-! ### The instruction a step runs -/

/-- Settles O39: the word accepted is the encoding of the instruction it decodes to. -/
theorem stepRunsTheDecodedInstruction : Obligations.StepRunsTheDecodedInstruction := by
  unfold Obligations.StepRunsTheDecodedInstruction
  intro s inp rest i inputs rst valid kind decoded _
  exact step_exec_encode inputs rst valid kind (decode_eq_ok_iff.mp decoded)

theorem decodeTableWord_eq_some_iff {nbits w : Nat} {i : Instr} :
    decodeTableWord nbits w = some i ↔ decode (tableWord nbits w) = .ok i := by
  unfold decodeTableWord
  cases decode (tableWord nbits w) <;> simp [Except.toOption]

/-- The step after `withFetchWord` accepts an EXEC of the word, and then stands where the word was placed. -/
theorem step_withFetchWord (s : State) (nbits w : Nat) :
    step (s.withFetchWord nbits w) = accept (execInputs (tableWord nbits w)) s :=
  step_of_accepted (s := s.withFetchWord nbits w) (rest := s.inputs) rfl rfl rfl

/-- Settles O40: the word placed is accepted at once, and is run or rejected as it decodes. -/
theorem placedWordRunsNext : Obligations.PlacedWordRunsNext := by
  unfold Obligations.PlacedWordRunsNext
  refine fun s nbits w => ⟨fun i decoded => ?_, fun undecoded => ?_⟩
  · have word := decode_eq_ok_iff.mp (decodeTableWord_eq_some_iff.mp decoded)
    exact step_exec_encode (s := s.withFetchWord nbits w) rfl rfl rfl rfl word
  · have illegal : ¬ ∃ i, decode (tableWord nbits w) = .ok i := by
      simp [← decodeTableWord_eq_some_iff, undecoded]
    rw [step_withFetchWord]
    exact accept_eq_raise_of_illegal (inp := execInputs (tableWord nbits w)) (.inl ⟨rfl, illegal⟩) s

/-! ### Every step answers -/

theorem exec_answers (i : Instr) (s : State) : ∃ t, exec i s = .next t := by
  cases i with
  | mov src dst =>
    cases comp : compatible src dst with
    | true => exact ⟨_, exec_mov_of_compatible comp s⟩
    | false => exact ⟨_, exec_mov_of_not_compatible comp s⟩
  | xchg src dst =>
    cases comp : compatible src dst with
    | true => exact ⟨_, exec_xchg_of_compatible comp s⟩
    | false => exact ⟨_, exec_xchg_of_not_compatible comp s⟩
  | push src =>
    cases full : stackFull s with
    | true => exact ⟨_, exec_push_of_full full src⟩
    | false =>
      by_cases word : src.view = .word
      · exact ⟨_, exec_push_of_word full word⟩
      · exact ⟨_, exec_push_of_byte full word⟩
  | pop dst =>
    cases top : s.stack with
    | nil => exact ⟨_, exec_pop_of_empty top dst⟩
    | cons v rest =>
      by_cases word : dst.view = .word
      · exact ⟨_, exec_pop_of_word top word⟩
      · exact ⟨_, exec_pop_of_byte top word⟩

theorem execRequest_answers (w : Word) (s : State) : ∃ t, execRequest w s = .next t := by
  unfold execRequest
  split
  · exact exec_answers _ s
  · exact ⟨_, rfl⟩

theorem readRequest_answers (ref : RefCode) (s : State) : ∃ t, readRequest ref s = .next t := by
  unfold readRequest
  split <;> exact ⟨_, rfl⟩

theorem writeRequest_answers (ref : RefCode) (v : Word) (s : State) :
    ∃ t, writeRequest ref v s = .next t := by
  unfold writeRequest
  split <;> exact ⟨_, rfl⟩

theorem accept_answers (inp : Inputs) (s : State) : ∃ t, accept inp s = .next t := by
  unfold accept
  split_ifs
  · exact execRequest_answers _ s
  · exact readRequest_answers _ s
  · exact writeRequest_answers _ _ s
  · exact ⟨_, rfl⟩

theorem step_answers (s : State) : ∃ t, step s = .next t := by
  cases inputs : s.inputs with
  | nil => exact ⟨_, step_of_no_inputs inputs⟩
  | cons inp rest =>
    cases rst : inp.rst with
    | true => exact ⟨_, step_of_presentsReset ⟨inp, by simp [inputs], rst⟩⟩
    | false =>
      cases valid : inp.reqValid with
      | true =>
        rw [step_of_accepted inputs rst valid]
        exact accept_answers inp _
      | false => exact ⟨_, step_of_no_request inputs rst valid⟩

/-- Settles O29: `step_answers`, and induction on the length of the run. -/
theorem everyRunAnswersNext : Obligations.EveryRunAnswersNext := by
  unfold Obligations.EveryRunAnswersNext
  refine ⟨step_answers, fun k => ?_⟩
  induction k with
  | zero => exact fun s => ⟨s, rfl⟩
  | succ k ih =>
    intro s
    obtain ⟨t, first⟩ := step_answers s
    rw [RunsThrough, run_succ_of_step first]
    exact ih t

/-! ### No request reads the response -/

/-- Every answer of an instruction is one of `complete` or `raise`, which set the whole response. -/
theorem exec_withRsp (i : Instr) (s : State) (p : Response) : exec i (s.withRsp p) = exec i s := by
  cases i with
  | mov | xchg | push | pop => rfl

theorem accept_withRsp (inp : Inputs) (s : State) (p : Response) :
    accept inp (s.withRsp p) = accept inp s := by
  have execs : execRequest inp.reqInstr (s.withRsp p) = execRequest inp.reqInstr s := by
    simp only [execRequest, exec_withRsp]
    rfl
  rw [accept, execs]
  rfl

/-- Settles O37: `exec_withRsp`, and `accept_withRsp` at the accepting edge. -/
theorem noRequestReadsTheResponse : Obligations.NoRequestReadsTheResponse := by
  unfold Obligations.NoRequestReadsTheResponse
  refine ⟨exec_withRsp, fun s inp p accepted => ?_⟩
  obtain ⟨rest, inputs, rst, valid⟩ := accepts_iff.mp accepted
  rw [step_of_accepted inputs rst valid, step_of_accepted (s := { s with rsp := p }) inputs rst valid]
  exact accept_withRsp inp (s.withInputs rest) p

/-! ### One response per accepted request -/

theorem config_and_inputs_of_accept {inp : Inputs} (h : accept inp s = .next t) :
    t.config = s.config ∧ t.inputs = s.inputs := by
  obtain ⟨_, i, _, executed⟩ | ⟨_, _, rfl⟩ | ⟨_, _, _, rfl⟩ | ⟨_, _, _, rfl⟩ | ⟨_, _, rfl⟩ |
    ⟨_, _, _, rfl⟩ := accept_cases h
  · exact ⟨config_of_exec executed, inputs_of_exec executed⟩
  all_goals exact ⟨rfl, rfl⟩

/-- Settles O44: of the four edges, the two idle ones and reset leave `rsp_valid` 0, and the fourth is the
one that accepts a request. -/
theorem oneResponsePerAcceptedRequest : Obligations.OneResponsePerAcceptedRequest := by
  unfold Obligations.OneResponsePerAcceptedRequest
  intro s t stepped
  refine ⟨⟨fun answered => ?_, fun ⟨inp, accepted⟩ => rsp_valid_of_accepts accepted stepped⟩, ?_⟩
  · obtain ⟨_, rfl⟩ | ⟨inp, rest, inputs, ⟨_, rfl⟩ | ⟨_, _, rfl⟩ | ⟨rst, valid, _⟩⟩ := step_cases stepped
    · cases answered
    · cases answered
    · cases answered
    · exact ⟨inp, accepts_iff.mpr ⟨rest, inputs, rst, valid⟩⟩
  · obtain ⟨empty, rfl⟩ | ⟨inp, rest, inputs, ⟨_, rfl⟩ | ⟨_, _, rfl⟩ | ⟨_, _, accepted⟩⟩ :=
      step_cases stepped
    · exact ⟨by simp [empty], rfl⟩
    · exact ⟨by simp [inputs], rfl⟩
    · exact ⟨by simp [inputs], rfl⟩
    · obtain ⟨config, coming⟩ := config_and_inputs_of_accept accepted
      exact ⟨by simp [coming, inputs], config⟩

end Sys2Proof.Machine
